-- ==== Sys2Proof/Word.lean ====
section
/-!
DEFINITION. The words of this hardware: line levels, bytes, the three output lines and the line
events a trace is made of (spec 00_scope.md R6, R7; 20_memory.md R50; 30_encoding.md R86).
-/
namespace Sys2Proof

/-- One bit: a line level (0 electrically low, 1 high) or a one-bit register (R6). -/
abbrev Bit := BitVec 1

/-- A byte, bit 0 the least significant (R6). -/
abbrev Byte := BitVec 8

/-- The three lines the block writes (R50); `DAT` is only read and so is no constructor. -/
inductive OutLine where
  /-- attention, low for the whole of a session -/
  | att
  /-- clock -/
  | clk
  /-- command, the bits to the peer -/
  | cmd
  deriving DecidableEq, Repr

/-- One entry of a trace (R86): `W(L,v)`, `R(DAT)=d` or `WAIT(T_SETTLE)`. -/
inductive Event where
  | write (l : OutLine) (v : Bit)
  | read (d : Bit)
  | waitSettle
  deriving DecidableEq, Repr

end Sys2Proof
end

