-- ==== Sys2Proof/Config.lean ====
section
/-!
DEFINITION. What an implementation fixes and the free values: the constants of R4, the type of
an admissible `CATALOG` (R107), the parameters of R5, and the values the spec leaves open.
The opaque constants have no body: nothing in Lean can evaluate one, so a claim holds whatever
they are.
-/
namespace Sys2Proof.Config

/-- `LMIN`, the least Command Frame length (R4). -/
abbrev lmin : Nat := 8

/-- `LMAX`, the greatest Command Frame length (R4). -/
abbrev lmax : Nat := 16

/-- `READ_LEN`, the length of the read-data frame and of the frame the decoder expects (R4). -/
abbrev readLen : Nat := 9

/-- `MODE_DIGITAL` (R4, R75). -/
abbrev modeDigital : Byte := 0x41#8

/-- `MODE_ANALOG` (R4, R75). -/
abbrev modeAnalog : Byte := 0x73#8

/-- `AXIS_DEFAULT` (R4, R77). -/
abbrev axisDefault : Byte := 127#8

/-- A Command Frame of the catalogue: its first `8 + extra` bytes of `bytes`, so that its length
is in `LMIN..LMAX` by construction (R107 (b)). -/
structure Frame where
  extra : Fin 9
  bytes : Vector Byte 16
  deriving DecidableEq, Repr, Inhabited

/-- An admissible `CATALOG` argument (R107): six entries, each of 8 to 16 bytes, the read-data
entry of exactly 9. -/
structure Catalogue where
  enterConfig : Frame
  setMode     : Frame
  exitConfig  : Frame
  readData    : Vector Byte 9
  motorEnable : Frame
  getStatus   : Frame
  deriving DecidableEq, Repr, Inhabited

/-- `PIN`, the platform's pin of each line (R5, R192). -/
structure Pins where
  att : Nat
  clk : Nat
  cmd : Nat
  dat : Nat
  deriving DecidableEq, Repr, Inhabited

/-- The parameters of R5 but the oracle. Only `CATALOG` and `CMD_RESET` bear on a step; the durations,
in one unit the spec leaves open, bound from below how long a trace takes (R116, R221). -/
structure Params where
  /-- `CATALOG` (R40, R100). -/
  catalogue : Catalogue
  /-- `CMD_RESET`, the level of `CMD` after reset (R44, R211). -/
  cmdReset : Bit
  /-- `T_HALF`, the least time each clock phase is held (R116, R216). -/
  tHalf : Nat
  /-- `T_SETTLE`, the least settle delay of `INIT` (R143, R217). -/
  tSettle : Nat
  /-- `T_GAP`, the gap between bytes, which may be zero (R116, R220). -/
  tGap : Nat
  /-- `PIN`: no rule depends on it. -/
  pin : Pins
  deriving DecidableEq, Repr, Inhabited

/-- The parameters of the machine, left open by the spec (R5, D5, D8; log 2). -/
opaque params : Params

/-- The level an unknown peer, or no peer, shows at a read of `DAT`: a draw per read, under no
law (R52, U1, D21; log 3). The first argument is a counter that every read of `DAT` and every busy host
read of a result register (log 5) advances and no reset clears; the second is all
the peer has seen since the last reset. -/
opaque datLevel : Nat → List Event → Bit

/-- What a host read of a result register returns while `BUSY` = 1: a value that carries no
meaning (R45; log 5). The argument is the same counter, shared with `datLevel` (DESIGN CHOICE, log 5). -/
opaque busyRead : Nat → BitVec 16

end Sys2Proof.Config
end

