-- ==== Sys2Proof/Syntax.lean ====
section
/-!
DEFINITION. Syntax: the formats a word of spec/opcode_table.json can stand in, a word in its format,
and the one inductive of instructions, a constructor for each row of the table.
-/
namespace Sys2Proof

/-- Where a word stands (the table's column "format"; 30_encoding.md R70). -/
inductive Format where
  /-- the host operation word `CTRL`, 8 bits (R79) -/
  | ctrl
  /-- a Command Frame of nine bytes, 72 bits (R73) -/
  | commandFrame
  /-- response byte 1, the mode byte (R75) -/
  | modeByte
  /-- the 16-bit button mask, looked at for button `k` (R76) -/
  | mask16 (k : Fin 16)
  /-- response byte `5 + a`, axis `a` (R77) -/
  | axisByte (a : Fin 4)
  deriving DecidableEq, Repr

/-- A word in its format. -/
inductive Item where
  | ctrl (b : Byte)
  | frame (bs : Vector Byte 9)
  | mode (b : Byte)
  | mask (k : Fin 16) (m : BitVec 16)
  | axis (a : Fin 4) (b : Byte)
  deriving DecidableEq, Repr

/-- The instructions: one constructor per row of spec/opcode_table.json. `sel` is the `SEL` field of
a `CTRL` word whose operation ignores it, `low` the free bits of a word that starts nothing, `mask`
the whole 16-bit button mask, `v` an axis byte. -/
inductive Instr where
  /-- `XCHG` (R117) -/
  | xchg (sel : BitVec 3)
  /-- `SESSION` (R131) -/
  | session (sel : BitVec 3)
  /-- `INIT` (R140) -/
  | init (sel : BitVec 3)
  /-- `POLL` (R155) -/
  | poll (sel : BitVec 3)
  /-- `DECODE` (R166) -/
  | decode (sel : BitVec 3)
  /-- `CSESSION_ENTER_CONFIG` (R132) -/
  | csessionEnterConfig
  /-- `CSESSION_SET_MODE` (R132) -/
  | csessionSetMode
  /-- `CSESSION_EXIT_CONFIG` (R132) -/
  | csessionExitConfig
  /-- `CSESSION_READ_DATA` (R132) -/
  | csessionReadData
  /-- `CSESSION_MOTOR_ENABLE` (R132) -/
  | csessionMotorEnable
  /-- `CSESSION_GET_STATUS` (R132) -/
  | csessionGetStatus
  /-- `RESERVED_OP6` (R83) -/
  | reservedOp6 (sel : BitVec 3)
  /-- `RESERVED_OP7` (R83) -/
  | reservedOp7 (sel : BitVec 3)
  /-- `RESERVED_BIT6` (R83) -/
  | reservedBit6 (low : BitVec 6)
  /-- `RESERVED_SEL6` (R83) -/
  | reservedSel6
  /-- `RESERVED_SEL7` (R83) -/
  | reservedSel7
  /-- `NOP_START0` (R83) -/
  | nopStart0 (low : BitVec 7)
  /-- `FRAME_ENTER_CONFIG` (R101) -/
  | frameEnterConfig
  /-- `FRAME_SET_MODE` (R102) -/
  | frameSetMode
  /-- `FRAME_EXIT_CONFIG` (R103) -/
  | frameExitConfig
  /-- `FRAME_READ_DATA` (R104) -/
  | frameReadData
  /-- `FRAME_MOTOR_ENABLE` (R105) -/
  | frameMotorEnable
  /-- `FRAME_GET_STATUS` (R106) -/
  | frameGetStatus
  /-- `MODE_DIGITAL` (R75) -/
  | modeDigital
  /-- `MODE_ANALOG` (R75) -/
  | modeAnalog
  /-- `BUTTON_SELECT` (R76) -/
  | buttonSelect (mask : BitVec 16)
  /-- `BUTTON_L3` (R76) -/
  | buttonL3 (mask : BitVec 16)
  /-- `BUTTON_R3` (R76) -/
  | buttonR3 (mask : BitVec 16)
  /-- `BUTTON_START` (R76) -/
  | buttonStart (mask : BitVec 16)
  /-- `BUTTON_UP` (R76) -/
  | buttonUp (mask : BitVec 16)
  /-- `BUTTON_RIGHT` (R76) -/
  | buttonRight (mask : BitVec 16)
  /-- `BUTTON_DOWN` (R76) -/
  | buttonDown (mask : BitVec 16)
  /-- `BUTTON_LEFT` (R76) -/
  | buttonLeft (mask : BitVec 16)
  /-- `BUTTON_L2` (R76) -/
  | buttonL2 (mask : BitVec 16)
  /-- `BUTTON_R2` (R76) -/
  | buttonR2 (mask : BitVec 16)
  /-- `BUTTON_L1` (R76) -/
  | buttonL1 (mask : BitVec 16)
  /-- `BUTTON_R1` (R76) -/
  | buttonR1 (mask : BitVec 16)
  /-- `BUTTON_TRIANGLE` (R76) -/
  | buttonTriangle (mask : BitVec 16)
  /-- `BUTTON_CIRCLE` (R76) -/
  | buttonCircle (mask : BitVec 16)
  /-- `BUTTON_CROSS` (R76) -/
  | buttonCross (mask : BitVec 16)
  /-- `BUTTON_SQUARE` (R76) -/
  | buttonSquare (mask : BitVec 16)
  /-- `AXIS_RIGHT_X` (R77) -/
  | axisRightX (v : Byte)
  /-- `AXIS_RIGHT_Y` (R77) -/
  | axisRightY (v : Byte)
  /-- `AXIS_LEFT_X` (R77) -/
  | axisLeftX (v : Byte)
  /-- `AXIS_LEFT_Y` (R77) -/
  | axisLeftY (v : Byte)
  deriving DecidableEq, Repr

end Sys2Proof
end

