-- ==== Sys2Proof/Machine/State.lean ====
section
/-!
DEFINITION. The state of the block (10_state.md R20: "Nothing else is state"), with the model's own
fields for the agents around it, its reset values (R44), and the reasons a step can stop.
-/
namespace Sys2Proof.Machine

/-- The sequencer position (R25). -/
inductive Pos where
  /-- no operation in progress -/
  | idle
  /-- `XCHG`: the next event is event `k` of the byte exchange -/
  | bxs (k : Fin 33)
  /-- session `o` of the operation: the next event is event `p` of it -/
  | ses (o : Fin 4) (p : Nat)
  /-- `INIT` has finished session 2: the next event is `WAIT(T_SETTLE)` -/
  | settle
  deriving DecidableEq, Repr

/-- Who answers the reads of `DAT` (R52; log 3). The last three are the test peers of
95_test_vectors.md section 0. -/
inductive Peer where
  /-- any peer, or none: every answer is a draw -/
  | unknown
  /-- `LOOP` -/
  | loopback
  /-- `CONST(v)` -/
  | const (v : Bit)
  /-- `SCRIPT(B)` -/
  | script (bytes : List Byte)
  deriving DecidableEq, Repr

/-- The host-visible registers (R27 to R38). -/
inductive HReg where
  | ctrl | status | txd | rxd | cflen | rflen | result | pressed
  | axis (a : Fin 4)
  | lines
  | cf (j : Fin 16)
  | rf (j : Fin 16)
  deriving DecidableEq, Repr

/-- One turn: a host move (R196), or leave for the sequencer to move (log 4). -/
inductive Turn where
  /-- the host applies reset (R210) -/
  | reset
  /-- the host writes a register; a `CTRL` write is an operation word (R27) -/
  | write (r : HReg) (v : Byte)
  /-- the host reads a register (R45) -/
  | read (r : HReg)
  /-- the host puts a word of the opcode table where the block takes it from (R85; log 1) -/
  | present (it : Item)
  /-- the sequencer takes one micro-step, if it has one -/
  | tick
  /-- the host waits for `BUSY` = 0 (R85) while the sequencer takes micro-steps -/
  | wait
  /-- another agent drives a line of the block's bus (R61, U4) -/
  | intruder (l : OutLine) (v : Bit)
  deriving DecidableEq, Repr

/-- The state. -/
structure State where
  /-- latch `ATT` (R21) -/
  att : Bit
  /-- latch `CLK` (R21) -/
  clk : Bit
  /-- latch `CMD` (R21) -/
  cmd : Bit
  /-- `TXB`, the byte being sent (R23) -/
  txb : Byte
  /-- `ACC`, the byte being received (R23) -/
  acc : Byte
  /-- `FR`, the Command Frame in flight (R24) -/
  fr : List Byte
  /-- `RF[0..15]`, the Response Frame (R24, R34) -/
  rf : Vector Byte 16
  /-- `RFLEN` (R33) -/
  rflen : BitVec 5
  /-- `TXD` (R29) -/
  txd : Byte
  /-- `CF[0..15]`, the host's Command Frame (R32) -/
  cf : Vector Byte 16
  /-- `CFLEN` (R31) -/
  cflen : BitVec 5
  /-- `RXD` (R30) -/
  rxd : Byte
  /-- `ANALOG` (R35) -/
  analog : Bit
  /-- `AXIS[0..3]` (R37) -/
  axis : Vector Byte 4
  /-- `PRESSED` (R36) -/
  pressed : BitVec 16
  /-- `OPR` (R46) -/
  opr : BitVec 3
  /-- `SELR` (R46) -/
  selr : BitVec 3
  /-- `pos` (R25) -/
  pos : Pos
  /-- `BUSY` (R26) -/
  busy : Bit
  /-- `DONE` (R26) -/
  done : Bit
  /-- `CFG_FAIL` (R26) -/
  cfgFail : Bit
  /-- the model's own: `CATALOG` and `CMD_RESET`, which nothing changes (R5, R40; log 2) -/
  params : Config.Params
  /-- the model's own: who answers the reads of `DAT` (log 3) -/
  peer : Peer
  /-- the model's own: reads of `DAT` since the last reset -/
  reads : Nat
  /-- the model's own: the counter free values are drawn with, of `DAT` and of busy host reads (log 3,
  log 5) -/
  draws : Nat
  /-- the model's own: the line events since the last reset, oldest first (R43, R210) -/
  trace : List Event
  /-- the model's own: whose move comes next (log 4) -/
  turns : List Turn
  /-- the model's own: what the host's last register read returned (log 5) -/
  hostGot : BitVec 16
  deriving DecidableEq, Repr

/-- Every field at its reset value (R44, R210), for given parameters. -/
def State.resetWith (p : Config.Params) : State where
  att := 1#1
  clk := 1#1
  cmd := p.cmdReset
  txb := 0#8
  acc := 0#8
  fr := []
  rf := Vector.replicate 16 0#8
  rflen := 0#5
  txd := 0#8
  cf := Vector.replicate 16 0#8
  cflen := 0#5
  rxd := 0#8
  analog := 0#1
  axis := Vector.replicate 4 127#8
  pressed := 0#16
  opr := 0#3
  selr := 0#3
  pos := .idle
  busy := 0#1
  done := 0#1
  cfgFail := 0#1
  params := p
  peer := .unknown
  reads := 0
  draws := 0
  trace := []
  turns := []
  hostGot := 0#16

/-- The machine right after reset: nothing known of `CATALOG`, of `CMD_RESET` or of the peer, and no
host move pending. -/
def State.reset : State := State.resetWith Config.params

/-- The two signals of the error taxonomy (R180), and no third (R183). A run never ends in one
(R188: "a run of the block never ends in a fault state"), so no step answers `.fault`: that is what
the spec says of the block, neither a safe nor an unsafe difference. -/
inductive Fault where
  /-- Configuration Failure (R181): the last micro-step of `INIT` raises it, which sets `CFG_FAIL`
  and does nothing else (R186). -/
  | configurationFailure
  /-- Short Frame (R182): the decoder raises it on a frame shorter than nine bytes, with no effect
  beyond the neutral Poll Result (R186). -/
  | shortFrame
  deriving DecidableEq, Repr

/-- Why a step has no meaning. -/
inductive Refusal where
  /-- No instruction is left without a meaning: no arm of exec answers this. Safe. -/
  | notModelled (mnemonic : String)
  /-- `step`, at a turn in which another agent drives a line: "a model refuses such a configuration
  rather than give it a meaning" (R61). Safe. -/
  | secondDriver (l : OutLine)
  deriving DecidableEq, Repr

end Sys2Proof.Machine
end

