-- ==== Sys2Proof/Machine/Flags.lean ====
section
/-!
DEFINITION. Flag computations: the bytes `STATUS`, `RESULT` and `LINES`, the recognized mode bytes,
and the codes of the two signals.
-/
namespace Sys2Proof.Machine

/-- `STATUS` = `{0, CFG_FAIL, DONE, BUSY}` (R28). -/
def statusByte (s : State) : Byte := (0#5 ++ s.cfgFail ++ s.done ++ s.busy : BitVec 8)

/-- `RESULT` = `{0, ANALOG}` (R35). -/
def resultByte (s : State) : Byte := (0#7 ++ s.analog : BitVec 8)

/-- `LINES` = `{0, CMD, CLK, ATT}`, the latches (R38). -/
def linesByte (s : State) : Byte := (0#5 ++ s.cmd ++ s.clk ++ s.att : BitVec 8)

/-- A mode byte is one of the two recognized values, compared whole (R75). -/
def recognizedMode (b : Byte) : Bool := b == Config.modeDigital || b == Config.modeAnalog

/-- The mode flag of a full frame (R159, R82 (e)). -/
def analogFlag (b : Byte) : Bit := if b = Config.modeAnalog then 1#1 else 0#1

/-- The signal `INIT` raises on the mode byte of its validation read (R145). -/
def validationSignal (b : Byte) : Option Fault :=
  if recognizedMode b then none else some .configurationFailure

/-- The signal the decoder raises on a frame of `n` bytes (R158, R182). -/
def decoderSignal (n : Nat) : Option Fault :=
  if n < Config.readLen then some .shortFrame else none

/-- The codes of the signals; 0 is no signal (R180). They appear in no register. -/
def signalCode : Option Fault → Nat
  | none => 0
  | some .configurationFailure => 1
  | some .shortFrame => 2

end Sys2Proof.Machine
end

