-- ==== Sys2Proof/WellFormed.lean ====
section
/-!
DEFINITION. Well-formedness: a button row's word has that button's mask bit clear (30_encoding.md
R76: "bit clear ⇒ pressed"), as the table's patterns say; every other constructor's operands are
free at every value.
-/
namespace Sys2Proof

/-- The words each row of the table admits. -/
def Instr.wellFormed : Instr → Bool
  | .xchg _ => true
  | .session _ => true
  | .init _ => true
  | .poll _ => true
  | .decode _ => true
  | .csessionEnterConfig => true
  | .csessionSetMode => true
  | .csessionExitConfig => true
  | .csessionReadData => true
  | .csessionMotorEnable => true
  | .csessionGetStatus => true
  | .reservedOp6 _ => true
  | .reservedOp7 _ => true
  | .reservedBit6 _ => true
  | .reservedSel6 => true
  | .reservedSel7 => true
  | .nopStart0 _ => true
  | .frameEnterConfig => true
  | .frameSetMode => true
  | .frameExitConfig => true
  | .frameReadData => true
  | .frameMotorEnable => true
  | .frameGetStatus => true
  | .modeDigital => true
  | .modeAnalog => true
  | .buttonSelect mask => !mask.getLsbD 0
  | .buttonL3 mask => !mask.getLsbD 1
  | .buttonR3 mask => !mask.getLsbD 2
  | .buttonStart mask => !mask.getLsbD 3
  | .buttonUp mask => !mask.getLsbD 4
  | .buttonRight mask => !mask.getLsbD 5
  | .buttonDown mask => !mask.getLsbD 6
  | .buttonLeft mask => !mask.getLsbD 7
  | .buttonL2 mask => !mask.getLsbD 8
  | .buttonR2 mask => !mask.getLsbD 9
  | .buttonL1 mask => !mask.getLsbD 10
  | .buttonR1 mask => !mask.getLsbD 11
  | .buttonTriangle mask => !mask.getLsbD 12
  | .buttonCircle mask => !mask.getLsbD 13
  | .buttonCross mask => !mask.getLsbD 14
  | .buttonSquare mask => !mask.getLsbD 15
  | .axisRightX _ => true
  | .axisRightY _ => true
  | .axisLeftX _ => true
  | .axisLeftY _ => true

end Sys2Proof
end

