-- ==== Sys2Proof/Decode.lean ====
section
/-!
DEFINITION. Decoding and encoding, from 30_encoding.md R73 to R83 and 40_command_catalog.md R101 to
R106. `decode` is total on every list of bytes in every format and rejects by name; `encode` is its
inverse on well-formed instructions. `decodeTableWord` reads a word that carries no format.
-/
namespace Sys2Proof

/-- Why bytes are no word of the table. -/
inductive DecodeError where
  /-- the format has another number of bytes -/
  | wrongLength (f : Format) (n : Nat)
  /-- nine bytes that are none of the default frames R101 to R106 -/
  | otherFrame
  /-- a mode byte other than 0x41 and 0x73: "unrecognized" (R75) -/
  | unrecognizedMode (b : Byte)
  /-- the mask bit of button `k` is set: "button NOT pressed" (R76) -/
  | notPressed (k : Fin 16)
  deriving DecidableEq, Repr

/-! ### Fields of a `CTRL` word (R79) -/

/-- `CTRL[7]`, `START`. -/
def ctrlStart (b : Byte) : Bit := b.extractLsb' 7 1

/-- `CTRL[6]`, reserved. -/
def ctrlReserved (b : Byte) : Bit := b.extractLsb' 6 1

/-- `CTRL[5:3]`, `SEL`. -/
def ctrlSel (b : Byte) : BitVec 3 := b.extractLsb' 3 3

/-- `CTRL[2:0]`, `OP`. -/
def ctrlOp (b : Byte) : BitVec 3 := b.extractLsb' 0 3

/-- The `CSESSION` words by `SEL` (R81); 6 and 7 are reserved (R83). -/
def decodeSel (sel : BitVec 3) : Instr :=
  match sel.toNat with
  | 0 => .csessionEnterConfig
  | 1 => .csessionSetMode
  | 2 => .csessionExitConfig
  | 3 => .csessionReadData
  | 4 => .csessionMotorEnable
  | 5 => .csessionGetStatus
  | 6 => .reservedSel6
  | _ => .reservedSel7

/-- The operation codes (R80); 6 and 7 are reserved (R83). -/
def decodeOp (op sel : BitVec 3) : Instr :=
  match op.toNat with
  | 0 => .xchg sel
  | 1 => .session sel
  | 2 => decodeSel sel
  | 3 => .init sel
  | 4 => .poll sel
  | 5 => .decode sel
  | 6 => .reservedOp6 sel
  | _ => .reservedOp7 sel

/-- A word written to `CTRL`: `START` = 0 starts nothing, then bit 6 must be 0, then `OP` and `SEL`
(R79, R80, R81, R83). Every one of the 256 words has a row. -/
def decodeCtrl (b : Byte) : Instr :=
  if ctrlStart b = 0#1 then .nopStart0 (b.extractLsb' 0 7)
  else if ctrlReserved b = 1#1 then .reservedBit6 (b.extractLsb' 0 6)
  else decodeOp (ctrlOp b) (ctrlSel b)

/-! ### Frames, mode bytes, masks, axes -/

/-- The default content of `CATALOG[ENTER_CONFIG]` (R101). -/
def frameEnterConfigBytes : Vector Byte 9 := #v[0x01, 0x43, 0x00, 0x01, 0x00, 0x00, 0x00, 0x00, 0x00]

/-- The default content of `CATALOG[SET_MODE]` (R102). -/
def frameSetModeBytes : Vector Byte 9 := #v[0x01, 0x44, 0x00, 0x01, 0x00, 0x00, 0x00, 0x00, 0x00]

/-- The default content of `CATALOG[EXIT_CONFIG]` (R103). -/
def frameExitConfigBytes : Vector Byte 9 := #v[0x01, 0x43, 0x00, 0x00, 0x5A, 0x5A, 0x5A, 0x5A, 0x5A]

/-- The default content of `CATALOG[READ_DATA]` (R104). -/
def frameReadDataBytes : Vector Byte 9 := #v[0x01, 0x42, 0x00, 0x00, 0x00, 0x00, 0x00, 0x00, 0x00]

/-- The default content of `CATALOG[MOTOR_ENABLE]` (R105). -/
def frameMotorEnableBytes : Vector Byte 9 := #v[0x01, 0x4D, 0x00, 0x00, 0x01, 0xFF, 0xFF, 0xFF, 0xFF]

/-- The default content of `CATALOG[GET_STATUS]` (R106). -/
def frameGetStatusBytes : Vector Byte 9 := #v[0x01, 0x45, 0x00, 0x5A, 0x5A, 0x5A, 0x5A, 0x5A, 0x5A]

/-- The frame rows, by their content. -/
def decodeFrameWord (bs : Vector Byte 9) : Except DecodeError Instr :=
  if bs = frameEnterConfigBytes then .ok .frameEnterConfig
  else if bs = frameSetModeBytes then .ok .frameSetMode
  else if bs = frameExitConfigBytes then .ok .frameExitConfig
  else if bs = frameReadDataBytes then .ok .frameReadData
  else if bs = frameMotorEnableBytes then .ok .frameMotorEnable
  else if bs = frameGetStatusBytes then .ok .frameGetStatus
  else .error .otherFrame

/-- The two recognized mode bytes (R75), compared as whole bytes. -/
def decodeMode (b : Byte) : Except DecodeError Instr :=
  if b = 0x41#8 then .ok .modeDigital
  else if b = 0x73#8 then .ok .modeAnalog
  else .error (.unrecognizedMode b)

/-- The button row of mask bit `k`, in the source's order of identifiers (R76). -/
def buttonRow (k : Fin 16) (mask : BitVec 16) : Instr :=
  match k.val with
  | 0 => .buttonSelect mask
  | 1 => .buttonL3 mask
  | 2 => .buttonR3 mask
  | 3 => .buttonStart mask
  | 4 => .buttonUp mask
  | 5 => .buttonRight mask
  | 6 => .buttonDown mask
  | 7 => .buttonLeft mask
  | 8 => .buttonL2 mask
  | 9 => .buttonR2 mask
  | 10 => .buttonL1 mask
  | 11 => .buttonR1 mask
  | 12 => .buttonTriangle mask
  | 13 => .buttonCircle mask
  | 14 => .buttonCross mask
  | _ => .buttonSquare mask

/-- A mask word looked at for button `k`: pressed when its bit is clear (R76). -/
def decodeMask (k : Fin 16) (mask : BitVec 16) : Except DecodeError Instr :=
  if mask.getLsbD k.val then .error (.notPressed k) else .ok (buttonRow k mask)

/-- The axis rows: every byte is a value (R77). -/
def axisRow (a : Fin 4) (v : Byte) : Instr :=
  match a with
  | 0 => .axisRightX v
  | 1 => .axisRightY v
  | 2 => .axisLeftX v
  | 3 => .axisLeftY v

/-- The instruction a word in its format stands for. -/
def decodeItem : Item → Except DecodeError Instr
  | .ctrl b => .ok (decodeCtrl b)
  | .frame bs => decodeFrameWord bs
  | .mode b => decodeMode b
  | .mask k m => decodeMask k m
  | .axis a b => .ok (axisRow a b)

/-- The word that bytes spell in a format; the mask's low octet comes first (R55). -/
def itemOf (f : Format) (bs : List Byte) : Option Item :=
  match f, bs with
  | .ctrl, [b] => some (.ctrl b)
  | .commandFrame, [b0, b1, b2, b3, b4, b5, b6, b7, b8] =>
      some (.frame #v[b0, b1, b2, b3, b4, b5, b6, b7, b8])
  | .modeByte, [b] => some (.mode b)
  | .mask16 k, [lo, hi] => some (.mask k (hi ++ lo))
  | .axisByte a, [b] => some (.axis a b)
  | _, _ => none

/-- THE DECODER: bytes in a format, lowest index first, to the instruction they are, or the reason
they are none. -/
def decode (f : Format) (bs : List Byte) : Except DecodeError Instr :=
  match itemOf f bs with
  | some it => decodeItem it
  | none => .error (.wrongLength f bs.length)

/-! ### Encoding -/

/-- A `CTRL` word from its fields (R79). -/
def ctrlWord (start reserved : Bit) (sel op : BitVec 3) : Byte := start ++ reserved ++ sel ++ op

/-- The word of an instruction, in its format. -/
def Instr.item : Instr → Item
  | .xchg sel => .ctrl (ctrlWord 1 0 sel 0)
  | .session sel => .ctrl (ctrlWord 1 0 sel 1)
  | .init sel => .ctrl (ctrlWord 1 0 sel 3)
  | .poll sel => .ctrl (ctrlWord 1 0 sel 4)
  | .decode sel => .ctrl (ctrlWord 1 0 sel 5)
  | .csessionEnterConfig => .ctrl (ctrlWord 1 0 0 2)
  | .csessionSetMode => .ctrl (ctrlWord 1 0 1 2)
  | .csessionExitConfig => .ctrl (ctrlWord 1 0 2 2)
  | .csessionReadData => .ctrl (ctrlWord 1 0 3 2)
  | .csessionMotorEnable => .ctrl (ctrlWord 1 0 4 2)
  | .csessionGetStatus => .ctrl (ctrlWord 1 0 5 2)
  | .reservedOp6 sel => .ctrl (ctrlWord 1 0 sel 6)
  | .reservedOp7 sel => .ctrl (ctrlWord 1 0 sel 7)
  | .reservedBit6 low => .ctrl ((1#1 ++ 1#1 ++ low : BitVec 8))
  | .reservedSel6 => .ctrl (ctrlWord 1 0 6 2)
  | .reservedSel7 => .ctrl (ctrlWord 1 0 7 2)
  | .nopStart0 low => .ctrl ((0#1 ++ low : BitVec 8))
  | .frameEnterConfig => .frame frameEnterConfigBytes
  | .frameSetMode => .frame frameSetModeBytes
  | .frameExitConfig => .frame frameExitConfigBytes
  | .frameReadData => .frame frameReadDataBytes
  | .frameMotorEnable => .frame frameMotorEnableBytes
  | .frameGetStatus => .frame frameGetStatusBytes
  | .modeDigital => .mode 0x41
  | .modeAnalog => .mode 0x73
  | .buttonSelect mask => .mask 0 mask
  | .buttonL3 mask => .mask 1 mask
  | .buttonR3 mask => .mask 2 mask
  | .buttonStart mask => .mask 3 mask
  | .buttonUp mask => .mask 4 mask
  | .buttonRight mask => .mask 5 mask
  | .buttonDown mask => .mask 6 mask
  | .buttonLeft mask => .mask 7 mask
  | .buttonL2 mask => .mask 8 mask
  | .buttonR2 mask => .mask 9 mask
  | .buttonL1 mask => .mask 10 mask
  | .buttonR1 mask => .mask 11 mask
  | .buttonTriangle mask => .mask 12 mask
  | .buttonCircle mask => .mask 13 mask
  | .buttonCross mask => .mask 14 mask
  | .buttonSquare mask => .mask 15 mask
  | .axisRightX v => .axis 0 v
  | .axisRightY v => .axis 1 v
  | .axisLeftX v => .axis 2 v
  | .axisLeftY v => .axis 3 v

/-- The format of a word. -/
def Item.format : Item → Format
  | .ctrl _ => .ctrl
  | .frame _ => .commandFrame
  | .mode _ => .modeByte
  | .mask k _ => .mask16 k
  | .axis a _ => .axisByte a

/-- The bytes of a word, index 0 first (R54, R55). -/
def Item.bytes : Item → List Byte
  | .ctrl b => [b]
  | .frame bs => bs.toList
  | .mode b => [b]
  | .mask _ m => [m.extractLsb' 0 8, m.extractLsb' 8 8]
  | .axis _ b => [b]

/-- The format an instruction's word stands in. -/
def Instr.format (i : Instr) : Format := i.item.format

/-- THE ENCODER: the bytes of an instruction's word. -/
def encode (i : Instr) : List Byte := i.item.bytes

/-- The number of bytes of a format (the table's width). -/
def Format.width : Format → Nat
  | .ctrl => 1
  | .commandFrame => 9
  | .modeByte => 1
  | .mask16 _ => 2
  | .axisByte _ => 1

/-! ### Words that carry no format (log 9) -/

/-- The nine bytes of a 72-bit word as the table prints it: byte 0, sent first, is the most
significant. -/
def frameOfNat (w : Nat) : Vector Byte 9 :=
  Vector.ofFn fun i => BitVec.ofNat 8 (w / 2 ^ (8 * (8 - i.val)))

/-- The button a bare mask word is read for: the lowest bit that is clear (R78's ascending order),
bit 0 where none is. -/
def lowestPressed (m : BitVec 16) : Fin 16 :=
  ((List.finRange 16).find? fun k : Fin 16 => !m.getLsbD k.val).getD 0

/-- The word a bare table word is taken for, by its width and, where rows of one width overlap, by
the row that fixes the most bits: 0x41 and 0x73 are the mode bytes (mask 0xFF), every other byte a
`CTRL` word; an axis byte (mask 0x00) is never told from them. -/
def tableItem (nbits w : Nat) : Option Item :=
  match nbits with
  | 8 =>
    let b := BitVec.ofNat 8 w
    some (if b = 0x41#8 ∨ b = 0x73#8 then .mode b else .ctrl b)
  | 16 => let m := BitVec.ofNat 16 w; some (.mask (lowestPressed m) m)
  | 72 => some (.frame (frameOfNat w))
  | _ => none

/-- The instruction the decoder reads from a word of the opcode table. -/
def decodeTableWord (nbits w : Nat) : Option Instr :=
  match tableItem nbits w with
  | some it => (decode it.format it.bytes).toOption
  | none => none

end Sys2Proof
end

