-- ==== Sys2Proof/Machine/Operands.lean ====
section
/-!
DEFINITION. Operand forms: the frames an operation sends, the bits of a byte on the wire, the
answer to a read of `DAT`, and the register buffers `CF` and `RF`.
-/
namespace Sys2Proof.Machine

/-- `b[i]`, bit `i` of a byte (R6, R82 (a)). -/
def bitOf (b : Byte) (i : Nat) : Bit := BitVec.ofBool (b.getLsbD i)

/-- The bytes of a catalogue frame, 8 to 16 of them (R73). -/
def frameBytes (f : Config.Frame) : List Byte := f.bytes.toList.take (Config.lmin + f.extra.val)

/-- `CATALOG[SEL]` for the six legal values of `SEL` (R81). -/
def catalogEntry (c : Config.Catalogue) (sel : Fin 6) : List Byte :=
  match sel with
  | 0 => frameBytes c.enterConfig
  | 1 => frameBytes c.setMode
  | 2 => frameBytes c.exitConfig
  | 3 => c.readData.toList
  | 4 => frameBytes c.motorEnable
  | 5 => frameBytes c.getStatus

/-- `[CF[0], ..., CF[CFLEN-1]]`, the frame `SESSION` sends (R131). -/
def hostFrame (s : State) : List Byte := s.cf.toList.take s.cflen.toNat

/-- Admission of `SESSION`: `LMIN <= CFLEN <= LMAX` (R31, R131). -/
def sessionLegal (s : State) : Bool :=
  decide (Config.lmin ≤ s.cflen.toNat ∧ s.cflen.toNat ≤ Config.lmax)

/-- Admission of `DECODE`: `RFLEN` in 0 to 16 (R166, U7). -/
def decodeLegal (s : State) : Bool := decide (s.rflen.toNat ≤ Config.lmax)

/-- Bytes written into a buffer at index `j` and on, in order (R85: "write `CF[j] <- bj` for
each `j`"). -/
def putBytes (v : Vector Byte 16) : Nat → List Byte → Vector Byte 16
  | _, [] => v
  | j, b :: bs => putBytes (v.setIfInBounds j b) (j + 1) bs

/-- What `SCRIPT(B)` answers to read `k`: bit `k mod 8` of `B[k div 8]`, and 1 once `B` is exhausted
(95_test_vectors.md section 0). -/
def scriptLevel (bytes : List Byte) (k : Nat) : Bit :=
  match bytes[k / 8]? with
  | some b => bitOf b (k % 8)
  | none => 1#1

/-- The level of `DAT` at this moment (R22, R52): chosen by the peer. -/
def datNow (s : State) : Bit :=
  match s.peer with
  | .unknown => Config.datLevel s.draws s.trace
  | .loopback => s.cmd
  | .const v => v
  | .script bytes => scriptLevel bytes s.reads

/-- The default catalogue of R101 to R106, for tests (G1): it meets R107. -/
def defaultCatalogue : Config.Catalogue :=
  let nine (bs : Vector Byte 9) : Config.Frame :=
    ⟨1, putBytes (Vector.replicate 16 0#8) 0 bs.toList⟩
  { enterConfig := nine frameEnterConfigBytes
    setMode := nine frameSetModeBytes
    exitConfig := nine frameExitConfigBytes
    readData := frameReadDataBytes
    motorEnable := nine frameMotorEnableBytes
    getStatus := nine frameGetStatusBytes }

end Sys2Proof.Machine
end

