-- ==== Sys2Proof/Machine/Ops.lean ====
section
/-!
DEFINITION. The named operations over lines and registers: `LineWrite`, `LineRead`, `Wait` (R7, R51,
R52, R191), the start and end of an operation, the opening of a session, raising a signal (R186),
and reset (R210).
This block has no exception entry in the processor sense (R184, R186): `raise` is all there is, and
there is nothing to return from (R187).
-/
namespace Sys2Proof.Machine

/-- `LineWrite(L, v)` (R51): the latch takes the level and the event is recorded, a redundant write
too. -/
def lineWrite (l : OutLine) (v : Bit) (s : State) : State :=
  match l with
  | .att => { s with att := v, trace := s.trace ++ [.write .att v] }
  | .clk => { s with clk := v, trace := s.trace ++ [.write .clk v] }
  | .cmd => { s with cmd := v, trace := s.trace ++ [.write .cmd v] }

/-- `LineRead(DAT)` (R52) as it leaves the state: the level the peer shows is recorded, and no
register changes. The level itself is `datNow s`. -/
def lineRead (s : State) : State :=
  { s with
    reads := s.reads + 1
    draws := s.draws + 1
    trace := s.trace ++ [.read (datNow s)] }

/-- `Wait(T_SETTLE)`: one event, no change of state (R143, R191). -/
def settleWait (s : State) : State := { s with trace := s.trace ++ [.waitSettle] }

/-- A host move that the block takes only while idle: ignored while `BUSY` = 1 (R45). -/
def whenIdle (s t : State) : State := if s.busy = 1#1 then s else t

/-- What every start does: `OPR <- OP`, `SELR <- SEL`, `BUSY <- 1`, `DONE <- 0` (R27, R46). -/
def beginOp (op sel : BitVec 3) (s : State) : State :=
  { s with opr := op, selr := sel, busy := 1#1, done := 0#1 }

/-- `pos <- q` (R7). -/
def moveTo (q : Pos) (s : State) : State := { s with pos := q }

/-- What every end does: `BUSY <- 0`, `DONE <- 1`, `pos <- IDLE`. -/
def finishOp (s : State) : State := { s with busy := 0#1, done := 1#1, pos := .idle }

/-- A session of the operation is about to begin: `FR` is loaded and `pos <- SES(o, 0)` (R24,
R140). -/
def openSession (o : Fin 4) (frame : List Byte) (s : State) : State :=
  moveTo (.ses o 0) { s with fr := frame }

/-- Raising a signal (R186): Configuration Failure sets `CFG_FAIL`; Short Frame has no entry action.
Neither saves state nor moves `pos` anywhere special. -/
def raise (f : Fault) (s : State) : State :=
  match f with
  | .configurationFailure => { s with cfgFail := 1#1 }
  | .shortFrame => s

/-- Raise a signal if there is one. -/
def raiseIf (f : Option Fault) (s : State) : State :=
  match f with
  | some f => raise f s
  | none => s

/-- Reset (R210, R212): every piece of the block's state takes its reset value, at any micro-step,
with no line event; the trace starts empty. The parameters, the peer, the draw counter, the host's
remaining moves and what the host has read are outside the block and stay. -/
def applyReset (s : State) : State :=
  { State.resetWith s.params with
    peer := s.peer
    draws := s.draws
    turns := s.turns
    hostGot := s.hostGot }

end Sys2Proof.Machine
end

