-- ==== Sys2Proof/Machine/Configure.lean ====
section
/-!
DEFINITION. The Configuration Sequence and operation `INIT` (43_configuration_sequence.md).
-/
namespace Sys2Proof.Machine

/-- The end of `INIT` (R140, R145): the mode byte of the validation read is checked, and the
operation ends normally whatever it is. -/
def endInit (s : State) : State := finishOp (raiseIf (validationSignal s.rf[1]) s)

/-- What follows session `o` of `INIT` (R140, R141): set-mode, exit-config, the settle wait, the
end. `FR` of the next session is loaded in this micro-step (DEDUCED, log 14). -/
def afterInitSession (o : Fin 4) (s : State) : State :=
  match o with
  | 0 => openSession 1 (catalogEntry s.params.catalogue 1) s
  | 1 => openSession 2 (catalogEntry s.params.catalogue 2) s
  | 2 => moveTo .settle s
  | 3 => endInit s

/-- The micro-step at `SETTLE`: `WAIT(T_SETTLE)`, then the validation read begins (R143, R144); its
frame is loaded in this micro-step (DEDUCED, log 14). -/
def settleEvent (s : State) : State :=
  openSession 3 (catalogEntry s.params.catalogue 3) (settleWait s)

/-- The start of `INIT` (R140): `CFG_FAIL` is cleared and session 0 begins. -/
def startInit (sel : BitVec 3) (s : State) : State :=
  openSession 0 (catalogEntry s.params.catalogue 0) { beginOp 3#3 sel s with cfgFail := 0#1 }

/-- `INIT` (R140). -/
def execInit (sel : BitVec 3) (s : State) : Host.Outcome State Fault Refusal :=
  .next (whenIdle s (startInit sel s))

end Sys2Proof.Machine
end

