-- ==== Sys2Proof/Machine/Exchange.lean ====
section
/-!
DEFINITION. The bit exchanger (41_bit_exchanger.md): the 33 events of one byte exchange, and the
host operation `XCHG`.
-/
namespace Sys2Proof.Machine

/-- What one event of a byte exchange does. -/
inductive BxAct where
  /-- `LineWrite(l, v)` -/
  | drive (l : OutLine) (v : Bit)
  /-- `d <- LineRead(DAT)` into bit `i` of `ACC` -/
  | sample (i : Nat)
  deriving DecidableEq, Repr

/-- Event `k` of the exchange of `b`, `k` = 0 to 32 (R111). -/
def bxAct (b : Byte) (k : Nat) : BxAct :=
  if k = 0 then .drive .cmd 0#1
  else
    match (k - 1) % 4 with
    | 0 => .drive .cmd (bitOf b ((k - 1) / 4))
    | 1 => .drive .clk 0#1
    | 2 => .sample ((k - 1) / 4)
    | _ => .drive .clk 1#1

/-- `ACC <- ACC | (zext_8(d) << i)` (R23, R111). -/
def orSample (acc : Byte) (d : Bit) (i : Nat) : Byte := acc ||| (d.setWidth 8 <<< i)

/-- Perform event `k` of the exchange of `TXB`; the clear of `ACC` is attached to event 0 (R112). -/
def bxEvent (k : Nat) (s : State) : State :=
  let s := if k = 0 then { s with acc := 0#8 } else s
  match bxAct s.txb k with
  | .drive l v => lineWrite l v s
  | .sample i => { lineRead s with acc := orSample s.acc (datNow s) i }

/-- One micro-step of `XCHG` at `BXS(k)`; the end of the operation is attached to event 32 (R117). -/
def xchgEvent (k : Fin 33) (s : State) : State :=
  let s := bxEvent k.val s
  if h : k.val + 1 < 33 then moveTo (.bxs ⟨k.val + 1, h⟩) s
  else finishOp { s with rxd := s.acc }

/-- The start of `XCHG` (R117): `TXB <- TXD`, `pos <- BXS(0)`. -/
def startXchg (sel : BitVec 3) (s : State) : State :=
  moveTo (.bxs 0) { beginOp 0#3 sel s with txb := s.txd }

/-- `XCHG` (R117). -/
def execXchg (sel : BitVec 3) (s : State) : Host.Outcome State Fault Refusal :=
  .next (whenIdle s (startXchg sel s))

end Sys2Proof.Machine
end

