-- ==== Sys2Proof/Machine/PollDecode.lean ====
section
/-!
DEFINITION. Poll and Decode (44_poll_decode.md): the decoder function, the Poll Result record, and
the host operations `POLL` and `DECODE`.
-/
namespace Sys2Proof.Machine

/-- The Poll Result (R39, R78). -/
structure PollResult where
  analog : Bit
  axis : Vector Byte 4
  pressed : BitVec 16
  deriving DecidableEq, Repr

/-- Every axis at `AXIS_DEFAULT`. -/
def centeredAxes : Vector Byte 4 := Vector.replicate 4 Config.axisDefault

/-- The degraded Poll Result of a short frame (R158). -/
def neutralResult : PollResult := { analog := 0#1, axis := centeredAxes, pressed := 0#16 }

/-- The button mask, byte 4 the high octet (R55, R82 (c)). -/
def maskOf (r : Vector Byte 16) : BitVec 16 := (r[4].setWidth 16 <<< 8) ||| r[3].setWidth 16

/-- `Decode(n, r)` (R157): the length test first, then the mode, the mask and the axes. -/
def decodeFrame (n : Nat) (r : Vector Byte 16) : PollResult :=
  if n < Config.readLen then neutralResult
  else
    { analog := analogFlag r[1]
      axis := if analogFlag r[1] = 1#1 then #v[r[5], r[6], r[7], r[8]] else centeredAxes
      pressed := ~~~ maskOf r }

/-- `(ANALOG, AXIS[0..3], PRESSED) <- Decode(RFLEN, RF)`, all six registers together (R39); a short
frame raises Short Frame, which does nothing more (R182, R186). -/
def storeResult (s : State) : State :=
  let p := decodeFrame s.rflen.toNat s.rf
  raiseIf (decoderSignal s.rflen.toNat)
    { s with analog := p.analog, axis := p.axis, pressed := p.pressed }

/-- `DECODE`'s single micro-step, refused when `RFLEN` is above 16 (R166, U7). -/
def decodeNow (sel : BitVec 3) (s : State) : State :=
  if decodeLegal s then finishOp (storeResult (beginOp 5#3 sel s)) else s

/-- `DECODE` (R166). -/
def execDecode (sel : BitVec 3) (s : State) : Host.Outcome State Fault Refusal :=
  .next (whenIdle s (decodeNow sel s))

/-- `POLL`'s start (R156); its session is the sequencer's, its decode `endSession`'s. -/
def execPoll (sel : BitVec 3) (s : State) : Host.Outcome State Fault Refusal :=
  .next (whenIdle s (openSession 0 (catalogEntry s.params.catalogue 3) (beginOp 4#3 sel s)))

/-! ### The caller-facing record (R76, R78) -/

/-- The sixteen button identifiers. -/
inductive Button where
  | select | l3 | r3 | start | up | right | down | left
  | l2 | r2 | l1 | r1 | triangle | circle | cross | square
  deriving DecidableEq, Repr

/-- The identifier of mask bit `k` (R76). -/
def buttonAt (k : Fin 16) : Button :=
  match k.val with
  | 0 => .select | 1 => .l3 | 2 => .r3 | 3 => .start
  | 4 => .up | 5 => .right | 6 => .down | 7 => .left
  | 8 => .l2 | 9 => .r2 | 10 => .l1 | 11 => .r1
  | 12 => .triangle | 13 => .circle | 14 => .cross | _ => .square

/-- The Button Set of a `PRESSED` vector, in ascending `k` (R36, R78). -/
def buttonSet (pressed : BitVec 16) : List Button :=
  ((List.finRange 16).filter fun k : Fin 16 => pressed.getLsbD k.val).map buttonAt

/-- The Poll Result as one 49-bit value, `ANALOG` at bit 0 (R78). -/
def pollRecord (s : State) : BitVec 49 :=
  s.pressed ++ s.axis[3] ++ s.axis[2] ++ s.axis[1] ++ s.axis[0] ++ s.analog

/-- The caller-facing record: the flag, the four axes, then the pressed buttons (R78). -/
def callerRecord (s : State) : Bit × List Byte × List Button :=
  (s.analog, s.axis.toList, buttonSet s.pressed)

end Sys2Proof.Machine
end

