-- ==== Sys2Proof/Machine/Session.lean ====
section
/-!
DEFINITION. The Command Session (42_command_session.md): the `33*n + 2` events of one session, what
each operation does at the end of one, and the host operations `SESSION` and `CSESSION`.
-/
namespace Sys2Proof.Machine

/-- Event `k` of the exchange of byte `j` inside a session (R126): `TXB <- FR[j]` before its first
event, here in the micro-step of that event (DEDUCED, log 14), `RF[j] <- ACC` and `RFLEN <- j + 1` with
its last. -/
def byteEvent (j k : Nat) (s : State) : State :=
  let s := if k = 0 then { s with txb := s.fr.getD j 0#8 } else s
  let s := bxEvent k s
  if k = 32 then
    { s with rf := s.rf.setIfInBounds j s.acc, rflen := BitVec.ofNat 5 (j + 1) }
  else s

/-- What is attached to the last event of session `o` of the operation `OPR`: `INIT` goes on (R140),
`POLL` decodes and ends (R156), `SESSION` and `CSESSION` end (R131, R132). -/
def endSession (o : Fin 4) (s : State) : State :=
  match s.opr.toNat with
  | 3 => afterInitSession o s
  | 4 => finishOp (storeResult s)
  | _ => finishOp s

/-- One micro-step of a session at `SES(o, p)` (R126): attention low, the byte exchanges, attention
high. -/
def sessionEvent (o : Fin 4) (p : Nat) (s : State) : State :=
  if p = 0 then
    moveTo (.ses o 1) (lineWrite .att 0#1 { s with rflen := 0#5 })
  else if p ≤ 33 * s.fr.length then
    moveTo (.ses o (p + 1)) (byteEvent ((p - 1) / 33) ((p - 1) % 33) s)
  else endSession o (lineWrite .att 1#1 s)

/-- The start of `SESSION` (R131), refused when `CFLEN` is outside 8 to 16 (R83). -/
def startSession (sel : BitVec 3) (s : State) : State :=
  if sessionLegal s then openSession 0 (hostFrame s) (beginOp 1#3 sel s) else s

/-- The start of `CSESSION sel` (R132): no reference to `CF` or `CFLEN`. -/
def startCatalogSession (sel : Fin 6) (s : State) : State :=
  openSession 0 (catalogEntry s.params.catalogue sel) (beginOp 2#3 (BitVec.ofNat 3 sel.val) s)

/-- `SESSION` (R131). -/
def execSession (sel : BitVec 3) (s : State) : Host.Outcome State Fault Refusal :=
  .next (whenIdle s (startSession sel s))

/-- `CSESSION ENTER_CONFIG` (R132, R101). -/
def execCsessionEnterConfig (s : State) : Host.Outcome State Fault Refusal :=
  .next (whenIdle s (startCatalogSession 0 s))

/-- `CSESSION SET_MODE` (R132, R102). -/
def execCsessionSetMode (s : State) : Host.Outcome State Fault Refusal :=
  .next (whenIdle s (startCatalogSession 1 s))

/-- `CSESSION EXIT_CONFIG` (R132, R103). -/
def execCsessionExitConfig (s : State) : Host.Outcome State Fault Refusal :=
  .next (whenIdle s (startCatalogSession 2 s))

/-- `CSESSION READ_DATA` (R132, R104). -/
def execCsessionReadData (s : State) : Host.Outcome State Fault Refusal :=
  .next (whenIdle s (startCatalogSession 3 s))

/-- `CSESSION MOTOR_ENABLE` (R132, R105). -/
def execCsessionMotorEnable (s : State) : Host.Outcome State Fault Refusal :=
  .next (whenIdle s (startCatalogSession 4 s))

/-- `CSESSION GET_STATUS` (R132, R106). -/
def execCsessionGetStatus (s : State) : Host.Outcome State Fault Refusal :=
  .next (whenIdle s (startCatalogSession 5 s))

end Sys2Proof.Machine
end

