-- ==== Sys2Proof/Machine/FrameWords.lean ====
section
/-!
DEFINITION. The table's rows that are words of a frame (40_command_catalog.md R101 to R106; 30_encoding.md
R75, R76, R77). A Command Frame is sent as R85's `SESSION [b0, ..., b8]` sends it; a field of a
read-data Response Frame is put into `RF` of a full frame, as R85's `SETRF` and R34 have it, and
`DECODE` is run on it (R166). Each is the host moves of R85 made at once, so no state comes about
that the host could not bring about by register writes (log 1); while `BUSY` = 1 all of them are
ignored (R45).
-/
namespace Sys2Proof.Machine

/-- `SESSION [b0, ..., b8]` (R85): `CF[j] <- bj`, `CFLEN <- 9`, `CTRL <- 0x81`. -/
def presentFrame (bs : Vector Byte 9) (s : State) : State :=
  whenIdle s (startSession 0#3 { s with cf := putBytes s.cf 0 bs.toList, cflen := 9#5 })

/-- `RF[j] <- bj` from index `j` on in a frame of `READ_LEN` bytes, then `CTRL <- 0x85` (R74, R85). -/
def presentField (j : Nat) (bs : List Byte) (s : State) : State :=
  whenIdle s (decodeNow 0#3 { s with rf := putBytes s.rf j bs, rflen := 9#5 })

/-- The mode byte is response byte 1 (R75). -/
def presentMode (b : Byte) (s : State) : State := presentField 1 [b] s

/-- The mask is response bytes 3 and 4, byte 4 the high octet (R55, R76). -/
def presentMask (m : BitVec 16) (s : State) : State :=
  presentField 3 [m.extractLsb' 0 8, m.extractLsb' 8 8] s

/-- Axis `a` is response byte `5 + a` (R77). -/
def presentAxis (a : Fin 4) (v : Byte) (s : State) : State := presentField (5 + a.val) [v] s

/-- A word that is no row of the table in its format (an unrecognized mode byte, a mask in which the
button looked for is not pressed, another frame) is ordinary data (R75, R76, R73): the same moves. -/
def presentOther (it : Item) (s : State) : State :=
  match it with
  | .ctrl _ => s
  | .frame bs => presentFrame bs s
  | .mode b => presentMode b s
  | .mask _ m => presentMask m s
  | .axis a v => presentAxis a v s

/-- The default EnterConfig frame is sent (R101). -/
def execFrameEnterConfig (s : State) : Host.Outcome State Fault Refusal :=
  .next (presentFrame frameEnterConfigBytes s)

/-- The default SetMode frame is sent (R102). -/
def execFrameSetMode (s : State) : Host.Outcome State Fault Refusal :=
  .next (presentFrame frameSetModeBytes s)

/-- The default ExitConfig frame is sent (R103). -/
def execFrameExitConfig (s : State) : Host.Outcome State Fault Refusal :=
  .next (presentFrame frameExitConfigBytes s)

/-- The default ReadData frame is sent (R104). -/
def execFrameReadData (s : State) : Host.Outcome State Fault Refusal :=
  .next (presentFrame frameReadDataBytes s)

/-- The default MotorEnable frame is sent (R105). -/
def execFrameMotorEnable (s : State) : Host.Outcome State Fault Refusal :=
  .next (presentFrame frameMotorEnableBytes s)

/-- The default GetStatus frame is sent (R106). -/
def execFrameGetStatus (s : State) : Host.Outcome State Fault Refusal :=
  .next (presentFrame frameGetStatusBytes s)

/-- Mode byte 0x41, Digital: `ANALOG` = 0, every axis 127 (R75, R159, R161). -/
def execModeDigital (s : State) : Host.Outcome State Fault Refusal :=
  .next (presentMode Config.modeDigital s)

/-- Mode byte 0x73, Analog: `ANALOG` = 1, the axes from bytes 5 to 8 (R75, R159, R161). -/
def execModeAnalog (s : State) : Host.Outcome State Fault Refusal :=
  .next (presentMode Config.modeAnalog s)

/-- A mask whose bit 0 is 0: SELECT is pressed (R76, R160). -/
def execButtonSelect (mask : BitVec 16) (s : State) : Host.Outcome State Fault Refusal :=
  .next (presentMask mask s)

/-- A mask whose bit 1 is 0: L3 is pressed (R76, R160). -/
def execButtonL3 (mask : BitVec 16) (s : State) : Host.Outcome State Fault Refusal :=
  .next (presentMask mask s)

/-- A mask whose bit 2 is 0: R3 is pressed (R76, R160). -/
def execButtonR3 (mask : BitVec 16) (s : State) : Host.Outcome State Fault Refusal :=
  .next (presentMask mask s)

/-- A mask whose bit 3 is 0: START is pressed (R76, R160). -/
def execButtonStart (mask : BitVec 16) (s : State) : Host.Outcome State Fault Refusal :=
  .next (presentMask mask s)

/-- A mask whose bit 4 is 0: UP is pressed (R76, R160). -/
def execButtonUp (mask : BitVec 16) (s : State) : Host.Outcome State Fault Refusal :=
  .next (presentMask mask s)

/-- A mask whose bit 5 is 0: RIGHT is pressed (R76, R160). -/
def execButtonRight (mask : BitVec 16) (s : State) : Host.Outcome State Fault Refusal :=
  .next (presentMask mask s)

/-- A mask whose bit 6 is 0: DOWN is pressed (R76, R160). -/
def execButtonDown (mask : BitVec 16) (s : State) : Host.Outcome State Fault Refusal :=
  .next (presentMask mask s)

/-- A mask whose bit 7 is 0: LEFT is pressed (R76, R160). -/
def execButtonLeft (mask : BitVec 16) (s : State) : Host.Outcome State Fault Refusal :=
  .next (presentMask mask s)

/-- A mask whose bit 8 is 0: L2 is pressed (R76, R160). -/
def execButtonL2 (mask : BitVec 16) (s : State) : Host.Outcome State Fault Refusal :=
  .next (presentMask mask s)

/-- A mask whose bit 9 is 0: R2 is pressed (R76, R160). -/
def execButtonR2 (mask : BitVec 16) (s : State) : Host.Outcome State Fault Refusal :=
  .next (presentMask mask s)

/-- A mask whose bit 10 is 0: L1 is pressed (R76, R160). -/
def execButtonL1 (mask : BitVec 16) (s : State) : Host.Outcome State Fault Refusal :=
  .next (presentMask mask s)

/-- A mask whose bit 11 is 0: R1 is pressed (R76, R160). -/
def execButtonR1 (mask : BitVec 16) (s : State) : Host.Outcome State Fault Refusal :=
  .next (presentMask mask s)

/-- A mask whose bit 12 is 0: TRIANGLE is pressed (R76, R160). -/
def execButtonTriangle (mask : BitVec 16) (s : State) : Host.Outcome State Fault Refusal :=
  .next (presentMask mask s)

/-- A mask whose bit 13 is 0: CIRCLE is pressed (R76, R160). -/
def execButtonCircle (mask : BitVec 16) (s : State) : Host.Outcome State Fault Refusal :=
  .next (presentMask mask s)

/-- A mask whose bit 14 is 0: CROSS is pressed (R76, R160). -/
def execButtonCross (mask : BitVec 16) (s : State) : Host.Outcome State Fault Refusal :=
  .next (presentMask mask s)

/-- A mask whose bit 15 is 0: SQUARE is pressed (R76, R160). -/
def execButtonSquare (mask : BitVec 16) (s : State) : Host.Outcome State Fault Refusal :=
  .next (presentMask mask s)

/-- Response byte 5, right-x: `AXIS[0]` takes it when `ANALOG` = 1, else 127 (R77, R161). -/
def execAxisRightX (v : Byte) (s : State) : Host.Outcome State Fault Refusal :=
  .next (presentAxis 0 v s)

/-- Response byte 6, right-y: `AXIS[1]` takes it when `ANALOG` = 1, else 127 (R77, R161). -/
def execAxisRightY (v : Byte) (s : State) : Host.Outcome State Fault Refusal :=
  .next (presentAxis 1 v s)

/-- Response byte 7, left-x: `AXIS[2]` takes it when `ANALOG` = 1, else 127 (R77, R161). -/
def execAxisLeftX (v : Byte) (s : State) : Host.Outcome State Fault Refusal :=
  .next (presentAxis 2 v s)

/-- Response byte 8, left-y: `AXIS[3]` takes it when `ANALOG` = 1, else 127 (R77, R161). -/
def execAxisLeftY (v : Byte) (s : State) : Host.Outcome State Fault Refusal :=
  .next (presentAxis 3 v s)

end Sys2Proof.Machine
end

