-- ==== Sys2Proof/Machine/Reserved.lean ====
section
/-!
DEFINITION. `CTRL` words that start nothing (30_encoding.md R83). "Refused" there means that the
write "changes no state, starts nothing, produces no line event, and leaves `BUSY` = 0 and `DONE`
unchanged": the machine goes on, so the meaning is the same state.
-/
namespace Sys2Proof.Machine

/-- A start that is refused, or a word that starts nothing: no state changes (R83, U6). -/
def startsNothing (s : State) : State := s

/-- `OP` = 6 is reserved (R83). -/
def execReservedOp6 (_sel : BitVec 3) (s : State) : Host.Outcome State Fault Refusal :=
  .next (startsNothing s)

/-- `OP` = 7 is reserved (R83). -/
def execReservedOp7 (_sel : BitVec 3) (s : State) : Host.Outcome State Fault Refusal :=
  .next (startsNothing s)

/-- `CTRL[6]` = 1 with `START` = 1 (R83). -/
def execReservedBit6 (_low : BitVec 6) (s : State) : Host.Outcome State Fault Refusal :=
  .next (startsNothing s)

/-- `CSESSION` with `SEL` = 6 (R83, R132). -/
def execReservedSel6 (s : State) : Host.Outcome State Fault Refusal := .next (startsNothing s)

/-- `CSESSION` with `SEL` = 7 (R83, R132). -/
def execReservedSel7 (s : State) : Host.Outcome State Fault Refusal := .next (startsNothing s)

/-- `START` = 0: "no-op" (R83, R27). -/
def execNopStart0 (_low : BitVec 7) (s : State) : Host.Outcome State Fault Refusal :=
  .next (startsNothing s)

end Sys2Proof.Machine
end

