-- ==== Sys2Proof/Machine/Dispatch.lean ====
section
/-!
DEFINITION. exec: one arm per constructor of Instr, each a direct call of its meaning.
-/
namespace Sys2Proof.Machine

def exec (i : Instr) (s : State) : Host.Outcome State Fault Refusal :=
  match i with
  | .xchg sel => Sys2Proof.Machine.execXchg sel s
  | .session sel => Sys2Proof.Machine.execSession sel s
  | .init sel => Sys2Proof.Machine.execInit sel s
  | .poll sel => Sys2Proof.Machine.execPoll sel s
  | .decode sel => Sys2Proof.Machine.execDecode sel s
  | .csessionEnterConfig => Sys2Proof.Machine.execCsessionEnterConfig s
  | .csessionSetMode => Sys2Proof.Machine.execCsessionSetMode s
  | .csessionExitConfig => Sys2Proof.Machine.execCsessionExitConfig s
  | .csessionReadData => Sys2Proof.Machine.execCsessionReadData s
  | .csessionMotorEnable => Sys2Proof.Machine.execCsessionMotorEnable s
  | .csessionGetStatus => Sys2Proof.Machine.execCsessionGetStatus s
  | .reservedOp6 sel => Sys2Proof.Machine.execReservedOp6 sel s
  | .reservedOp7 sel => Sys2Proof.Machine.execReservedOp7 sel s
  | .reservedBit6 low => Sys2Proof.Machine.execReservedBit6 low s
  | .reservedSel6 => Sys2Proof.Machine.execReservedSel6 s
  | .reservedSel7 => Sys2Proof.Machine.execReservedSel7 s
  | .nopStart0 low => Sys2Proof.Machine.execNopStart0 low s
  | .frameEnterConfig => Sys2Proof.Machine.execFrameEnterConfig s
  | .frameSetMode => Sys2Proof.Machine.execFrameSetMode s
  | .frameExitConfig => Sys2Proof.Machine.execFrameExitConfig s
  | .frameReadData => Sys2Proof.Machine.execFrameReadData s
  | .frameMotorEnable => Sys2Proof.Machine.execFrameMotorEnable s
  | .frameGetStatus => Sys2Proof.Machine.execFrameGetStatus s
  | .modeDigital => Sys2Proof.Machine.execModeDigital s
  | .modeAnalog => Sys2Proof.Machine.execModeAnalog s
  | .buttonSelect mask => Sys2Proof.Machine.execButtonSelect mask s
  | .buttonL3 mask => Sys2Proof.Machine.execButtonL3 mask s
  | .buttonR3 mask => Sys2Proof.Machine.execButtonR3 mask s
  | .buttonStart mask => Sys2Proof.Machine.execButtonStart mask s
  | .buttonUp mask => Sys2Proof.Machine.execButtonUp mask s
  | .buttonRight mask => Sys2Proof.Machine.execButtonRight mask s
  | .buttonDown mask => Sys2Proof.Machine.execButtonDown mask s
  | .buttonLeft mask => Sys2Proof.Machine.execButtonLeft mask s
  | .buttonL2 mask => Sys2Proof.Machine.execButtonL2 mask s
  | .buttonR2 mask => Sys2Proof.Machine.execButtonR2 mask s
  | .buttonL1 mask => Sys2Proof.Machine.execButtonL1 mask s
  | .buttonR1 mask => Sys2Proof.Machine.execButtonR1 mask s
  | .buttonTriangle mask => Sys2Proof.Machine.execButtonTriangle mask s
  | .buttonCircle mask => Sys2Proof.Machine.execButtonCircle mask s
  | .buttonCross mask => Sys2Proof.Machine.execButtonCross mask s
  | .buttonSquare mask => Sys2Proof.Machine.execButtonSquare mask s
  | .axisRightX v => Sys2Proof.Machine.execAxisRightX v s
  | .axisRightY v => Sys2Proof.Machine.execAxisRightY v s
  | .axisLeftX v => Sys2Proof.Machine.execAxisLeftX v s
  | .axisLeftY v => Sys2Proof.Machine.execAxisLeftY v s

end Sys2Proof.Machine
end

