-- ==== Sys2Proof/Machine/Registers.lean ====
section
/-!
DEFINITION. The host's side: the register file (10_state.md R27 to R38), host writes and reads
(R45, R196), and the program lines of 30_encoding.md R85 as lists of turns.
-/
namespace Sys2Proof.Machine

/-- The register number `H<n>` (R27 to R38). H13 to H15 are no register (log 8). -/
def hregNumber : HReg → Nat
  | .ctrl => 0 | .status => 1 | .txd => 2 | .rxd => 3 | .cflen => 4 | .rflen => 5
  | .result => 6 | .pressed => 7
  | .axis a => 8 + a.val
  | .lines => 12
  | .cf j => 16 + j.val
  | .rf j => 32 + j.val

/-- The number of bits a register holds; the bits above them read 0. -/
def hregWidth : HReg → Nat
  | .ctrl => 8 | .status => 3 | .txd => 8 | .rxd => 8 | .cflen => 5 | .rflen => 5
  | .result => 1 | .pressed => 16
  | .axis _ => 8
  | .lines => 3
  | .cf _ => 8
  | .rf _ => 8

/-- The value a register holds, widened with zeros to 16 bits. -/
def regValue (r : HReg) (s : State) : BitVec 16 :=
  match r with
  | .ctrl => 0#16
  | .status => (statusByte s).setWidth 16
  | .txd => s.txd.setWidth 16
  | .rxd => s.rxd.setWidth 16
  | .cflen => s.cflen.setWidth 16
  | .rflen => s.rflen.setWidth 16
  | .result => (resultByte s).setWidth 16
  | .pressed => s.pressed
  | .axis a => s.axis[a].setWidth 16
  | .lines => (linesByte s).setWidth 16
  | .cf j => s.cf[j].setWidth 16
  | .rf j => s.rf[j].setWidth 16

/-- The registers whose reads "carry no meaning" while `BUSY` = 1: `RF`, `RFLEN`, `RXD` and the Poll
Result (R45). -/
def resultReg : HReg → Bool
  | .rxd | .rflen | .result | .pressed | .axis _ | .rf _ => true
  | .ctrl | .status | .txd | .cflen | .lines | .cf _ => false

/-- A free value that fits a register of `w` bits. -/
def freeRead (w : Nat) (s : State) : BitVec 16 :=
  ((Config.busyRead s.draws).setWidth w).setWidth 16

/-- A host read (R45): no register of the block changes and no line event happens; the host gets the
value, or a free one where the spec gives a busy read no meaning. Such a draw advances `draws`, which an
unknown peer's levels are drawn with too: that a busy read may move which levels the peer shows later is
the model's choice, beside R57, which gives host reads no side effects (DESIGN CHOICE, log 5). -/
def hostRead (r : HReg) (s : State) : State :=
  if resultReg r ∧ s.busy = 1#1 then
    { s with hostGot := freeRead (hregWidth r) s, draws := s.draws + 1 }
  else { s with hostGot := regValue r s }

/-- A host write of a register other than `CTRL`, whose words `step` hands to `exec`: stored while
`BUSY` = 0, ignored while 1 (R45); the upper bits of `CFLEN` are ignored (R31); a write of `RFLEN` above
16 is refused (R33, R83); a read-only register ignores it (R28; log 7). -/
def hostWrite (r : HReg) (v : Byte) (s : State) : State :=
  whenIdle s <|
    match r with
    | .txd => { s with txd := v }
    | .cflen => { s with cflen := v.setWidth 5 }
    | .rflen => if v.toNat ≤ Config.lmax then { s with rflen := v.setWidth 5 } else s
    | .cf j => { s with cf := s.cf.set j v }
    | .rf j => { s with rf := s.rf.set j v }
    | .ctrl | .status | .rxd | .result | .pressed | .axis _ | .lines => s

/-! ### Program lines (R85) -/

/-- The lines of a program. -/
inductive HostOp where
  | reset
  | xchg (b : Byte)
  | session (frame : List Byte)
  | csession (sel : Fin 6)
  | init
  | poll
  | decode
  | setrf (frame : List Byte)
  deriving DecidableEq, Repr

/-- Writes of a list of bytes to a buffer's registers, index 0 first. A buffer has sixteen: bytes from
index 16 on are dropped, which is the model's choice, since R85 puts no bound on their number
(DESIGN CHOICE, log 17). -/
def bufferWrites (reg : Fin 16 → HReg) (frame : List Byte) : List Turn :=
  ((List.finRange 16).zip frame).map fun (j, b) => .write (reg j) b

/-- The host moves a program line stands for (R85). The length is written as a byte, modulo 256: that a
line longer than that wraps is the model's choice (DESIGN CHOICE, log 17). -/
def hostMoves : HostOp → List Turn
  | .reset => [.reset]
  | .xchg b => [.write .txd b, .write .ctrl 0x80#8, .wait]
  | .session frame =>
      bufferWrites .cf frame
        ++ [.write .cflen (BitVec.ofNat 8 frame.length), .write .ctrl 0x81#8, .wait]
  | .csession sel => [.write .ctrl (BitVec.ofNat 8 (0x82 + 8 * sel.val)), .wait]
  | .init => [.write .ctrl 0x83#8, .wait]
  | .poll => [.write .ctrl 0x84#8, .wait]
  | .decode => [.write .ctrl 0x85#8, .wait]
  | .setrf frame =>
      bufferWrites .rf frame ++ [.write .rflen (BitVec.ofNat 8 frame.length)]

/-- A program: its lines in order. -/
def programMoves (p : List HostOp) : List Turn := p.flatMap hostMoves

end Sys2Proof.Machine
end

