-- ==== Sys2Proof/Machine/Sequencer.lean ====
section
/-!
DEFINITION. The sequencer: one micro-step at the position `pos` (R8 (a), R9, R25).
-/
namespace Sys2Proof.Machine

/-- One micro-step: the event at `pos` with the register updates attached to it. An idle block makes
none (R213). -/
def microStep (s : State) : State :=
  match s.pos with
  | .idle => s
  | .bxs k => xchgEvent k s
  | .ses o p => sessionEvent o p s
  | .settle => settleEvent s

/-- `n` micro-steps, with no host move between them. -/
def microSteps : Nat → State → State
  | 0, s => s
  | n + 1, s => microSteps n (microStep s)

end Sys2Proof.Machine
end

