-- ==== Sys2Proof/Machine/Fetch.lean ====
section
/-!
DEFINITION. Fetching: what one turn does, a word put to the block being decoded and executed.
-/
namespace Sys2Proof.Machine

/-- A word of the opcode table is put to the block: decoded and executed where it is a row, ordinary
data where it is none. -/
def presentWord (it : Item) (s : State) : Host.Outcome State Fault Refusal :=
  match decodeItem it with
  | .ok i => exec i s
  | .error _ => .next (presentOther it s)

/-- One turn, already taken off the list; `s` is the state with it gone, `s0` the state before. -/
def takeTurn (t : Turn) (s0 s : State) : Host.Outcome State Fault Refusal :=
  match t with
  | .reset => .next (applyReset s)
  | .write .ctrl v => presentWord (.ctrl v) s
  | .write r v => .next (hostWrite r v s)
  | .read r => .next (hostRead r s)
  | .present it => presentWord it s
  | .tick => .next (microStep s)
  | .wait => .next (if s.busy = 1#1 then microStep s0 else s)
  | .intruder l _ => .refused (.secondDriver l)

end Sys2Proof.Machine
end

