-- ==== Sys2Proof/Machine/Step.lean ====
section
/-!
DEFINITION. One step of the machine: the turn at the head of `turns`, or, where the host has none
pending, one micro-step of the sequencer.
-/
namespace Sys2Proof.Machine

/-- One step (R8, R9, R196). -/
def step (s : State) : Host.Outcome State Fault Refusal :=
  match s.turns with
  | [] => .next (microStep s)
  | t :: rest => takeTurn t s { s with turns := rest }

/-- `s` with a word of the opcode table as the host's next move, so that `step` fetches it (log 4,
log 9). -/
def State.withFetchWord (s : State) (nbits w : Nat) : State :=
  match tableItem nbits w with
  | some it => { s with turns := .present it :: s.turns }
  | none => s

end Sys2Proof.Machine
end

