-- ==== Sys2Proof/Safety.lean ====
section
/-!
DEFINITION. The terms claims are made in: the traces the spec writes down (30_encoding.md R71, R72,
R86), edges as the peer sees them (20_memory.md R51), the invariant of the machine, and how many
micro-steps an operation has left (70_reset_and_hazards.md R223).
-/
namespace Sys2Proof.Machine

/-! ### Traces -/

/-- One bit cell sending `b[i]` and sampling `r[i]` (R71). -/
def cellEvents (b r : Byte) (i : Nat) : List Event :=
  [.write .cmd (bitOf b i), .write .clk 0#1, .read (bitOf r i), .write .clk 1#1]

/-- `BX(b; d0..d7)` with `d_i = r[i]`: the 33 events of one byte exchange (R71, R86, R111). -/
def byteEvents (b r : Byte) : List Event :=
  .write .cmd 0#1 :: (List.range 8).flatMap (cellEvents b r)

/-- The events of the bytes of a frame `f` answered by `r`, byte 0 first (R54). -/
def frameEvents : List Byte → List Byte → List Event
  | b :: f, a :: r => byteEvents b a ++ frameEvents f r
  | _, _ => []

/-- `SESS(F; R)`: one session (R72, R86). -/
def sessionEvents (f r : List Byte) : List Event :=
  .write .att 0#1 :: (frameEvents f r ++ [.write .att 1#1])

/-- The writes of a line in a trace, in order. -/
def writesOf (l : OutLine) : List Event → List Bit
  | [] => []
  | .write l' v :: es => if l' = l then v :: writesOf l es else writesOf l es
  | _ :: es => writesOf l es

/-- The levels read in a trace, in order. -/
def readsOf : List Event → List Bit
  | [] => []
  | .read d :: es => d :: readsOf es
  | _ :: es => readsOf es

/-- Edges to the level `goal` that a sequence of writes makes on a line that holds `level` (R51: a write
of the level already held makes none). -/
def edgesTo (goal : Bit) : Bit → List Bit → Nat
  | _, [] => 0
  | level, v :: vs => (if v = goal ∧ level ≠ goal then 1 else 0) + edgesTo goal v vs

/-- The least time one event takes with the hold attached to it: `T_HALF` after each write of `CLK`
(R116), `T_SETTLE` at the settle wait (R143); nothing is said of the others. -/
def leastHold (p : Config.Params) : Event → Nat
  | .write .clk _ => p.tHalf
  | .waitSettle => p.tSettle
  | .write .att _ | .write .cmd _ | .read _ => 0

/-- The least time a trace takes, without the optional gaps between bytes (R221). -/
def leastTime (p : Config.Params) (es : List Event) : Nat := (es.map (leastHold p)).sum

/-- A sixteen-byte buffer whose first bytes are `r`, the others as before (R24, R133). -/
def filled (old : Vector Byte 16) (r : List Byte) : Vector Byte 16 :=
  Vector.ofFn fun j : Fin 16 => r.getD j.val old[j.val]

/-! ### The invariant -/

/-- `BUSY` is 1 exactly while an operation is in progress (R25, R26). -/
def busyAt : Pos → Bit
  | .idle => 0#1
  | _ => 1#1

/-- `ATT` is low from the first event of a session to its last (R128), and high everywhere else. -/
def attAt : Pos → Bit
  | .ses _ p => if p = 0 then 1#1 else 0#1
  | _ => 1#1

/-- `CLK` before event `k` of a byte exchange: low only from event 2 to event 4 of a cell (R71). -/
def clkBefore (k : Nat) : Bit := if k ≠ 0 ∧ 2 ≤ (k - 1) % 4 then 0#1 else 1#1

/-- `CLK` at a position of a frame of `n` bytes: high outside the byte exchanges. -/
def clkAt (n : Nat) : Pos → Bit
  | .bxs k => clkBefore k.val
  | .ses _ p => if p = 0 ∨ 33 * n < p then 1#1 else clkBefore ((p - 1) % 33)
  | _ => 1#1

/-- The bytes of the current session that are in `RF` (R63); nothing is said between sessions. -/
def bytesIn (n : Nat) : Pos → Option Nat
  | .ses _ p => if p = 0 then none else some ((p - 1) / 33)
  | .settle => some n
  | _ => none

/-- The positions an operation can be at (R25, R46) on a frame of `n` bytes. -/
def posLegal (op : BitVec 3) (n : Nat) : Pos → Bool
  | .idle => true
  | .bxs _ => op == 0#3
  | .ses o p => decide (p ≤ 33 * n + 1) && (op == 3#3 || (o == 0 && (op == 1#3 || op == 2#3 || op == 4#3)))
  | .settle => op == 3#3

/-- A frame in flight has `LMIN` to `LMAX` bytes (R125). -/
def frameLength (n : Nat) : Pos → Bool
  | .ses _ _ | .settle => decide (8 ≤ n ∧ n ≤ 16)
  | _ => true

/-- The catalogue entry in flight, where the operation takes its frame from the catalogue (R24). -/
def entryInFlight (op sel : BitVec 3) : Pos → Option (Fin 6)
  | .ses o _ =>
    if op = 2#3 then (if h : sel.toNat < 6 then some ⟨sel.toNat, h⟩ else none)
    else if op = 3#3 then some ⟨o.val, by omega⟩
    else if op = 4#3 then some 3
    else none
  | .settle => some 2
  | _ => none

/-- `CSESSION` runs only with a legal `SEL` (R132). -/
def selLegal (op sel : BitVec 3) : Pos → Bool
  | .ses _ _ => op != 2#3 || decide (sel.toNat < 6)
  | _ => true

/-- The invariant of the machine. -/
structure Inv (s : State) : Prop where
  busy : s.busy = busyAt s.pos
  done : s.done = 1#1 → s.busy = 0#1
  att : s.att = attAt s.pos
  clk : s.clk = clkAt s.fr.length s.pos
  pos : posLegal s.opr s.fr.length s.pos = true
  len : frameLength s.fr.length s.pos = true
  sel : selLegal s.opr s.selr s.pos = true
  frame : ∀ e, entryInFlight s.opr s.selr s.pos = some e → s.fr = catalogEntry s.params.catalogue e
  filled : ∀ n, bytesIn s.fr.length s.pos = some n → s.rflen.toNat = n
  rflen : s.rflen.toNat ≤ 16
  config : s.opr = 3#3 → s.busy = 1#1 → s.cfgFail = 0#1
  axes : s.analog = 0#1 → s.axis = centeredAxes

/-! ### Termination -/

/-- A run is over: no host move is left and the last one's operation has completed (R222). -/
def runOver (s : State) : Bool := decide (s.turns = [] ∧ s.busy = 0#1 ∧ s.pos = .idle)

/-- The micro-steps of a session of `n` bytes (R134). -/
def sessionLength (n : Nat) : Nat := 33 * n + 2

/-- The micro-steps of `INIT` after session `o` (R149). -/
def afterSession (c : Config.Catalogue) (o : Fin 4) : Nat :=
  match o with
  | 0 => sessionLength (catalogEntry c 1).length + sessionLength (catalogEntry c 2).length + 300
  | 1 => sessionLength (catalogEntry c 2).length + 300
  | 2 => 300
  | 3 => 0

/-- The micro-steps the operation in progress has left (R223). -/
def remaining (s : State) : Nat :=
  match s.pos with
  | .idle => 0
  | .bxs k => 33 - k.val
  | .ses o p =>
    sessionLength s.fr.length - p
      + (if s.opr = 3#3 then afterSession s.params.catalogue o else 0)
  | .settle => 300

end Sys2Proof.Machine
end

