-- ==== Sys2Proof/Certificates/Slice0/Obligations.lean ====
section
/-!
DEFINITION. The statements for the provers. The host interface (`CTRL`, the registers, the reset
values, what a refused word does) is what the spec decided for itself (92_eei_decisions.md D2 to D4,
D8, D9, D12 to D14); a docstring names the log entry where a clause is this model's own choice.
`microSteps n s` is `n` micro-steps of the sequencer with
no host move between them; each final state is written out as an update of the state at the start,
so that what is not named is unchanged.
-/
open Sys2Proof Sys2Proof.Machine

/-! ### Encoding -/

/-- R73 to R81, R101 to R106: no bit of any row's word is dropped. -/
def Obligations.DecodeOfEncodeIsTheInstruction : Prop :=
  ∀ i : Instr, i.wellFormed = true → decode i.format (encode i) = .ok i

/-- What decodes is well-formed, stands in the format it was read in, and encodes to the very bytes:
no two words of a format are one instruction. -/
def Obligations.EncodeOfDecodeIsTheWord : Prop :=
  ∀ (f : Format) (bs : List Byte) (i : Instr), decode f bs = .ok i →
    i.wellFormed = true ∧ i.format = f ∧ encode i = bs

/-- Words written out from R80, R81, R83, R75, R76, R77, R105. -/
def Obligations.WordsOfTheSpecDecode : Prop :=
  decode .ctrl [0b10000000] = .ok (.xchg 0) ∧
  decode .ctrl [0b10111100] = .ok (.poll 7) ∧
  decode .ctrl [0b10011101] = .ok (.decode 3) ∧
  decode .ctrl [0b10100010] = .ok .csessionMotorEnable ∧
  decode .ctrl [0b10110010] = .ok .reservedSel6 ∧
  decode .ctrl [0b11000100] = .ok (.reservedBit6 0b000100) ∧
  decode .ctrl [0b00000100] = .ok (.nopStart0 0b0000100) ∧
  decode .commandFrame [0x01, 0x4D, 0x00, 0x00, 0x01, 0xFF, 0xFF, 0xFF, 0xFF]
    = .ok .frameMotorEnable ∧
  decode .modeByte [0x73] = .ok .modeAnalog ∧
  decode .modeByte [0x72] = .error (.unrecognizedMode 0x72) ∧
  decode (.mask16 12) [0xFF, 0xEF] = .ok (.buttonTriangle 0xEFFF) ∧
  decode (.mask16 12) [0xEF, 0xFF] = .error (.notPressed 12) ∧
  decode (.axisByte 3) [0x78] = .ok (.axisLeftY 0x78)

/-- R79, R80, R81 and the reserved words of R83: what each of the 256 operation words is. -/
def Obligations.CtrlWordFields : Prop :=
  ∀ b : Byte, ∃ i : Instr, decode .ctrl [b] = .ok i ∧
    let sel : BitVec 3 := b.extractLsb' 3 3
    let op : Nat := b.toNat % 8
    if b.toNat < 128 then i = .nopStart0 (b.extractLsb' 0 7)
    else if 192 ≤ b.toNat then i = .reservedBit6 (b.extractLsb' 0 6)
    else if op = 0 then i = .xchg sel
    else if op = 1 then i = .session sel
    else if op = 2 then
      (sel = 0 → i = .csessionEnterConfig) ∧ (sel = 1 → i = .csessionSetMode) ∧
      (sel = 2 → i = .csessionExitConfig) ∧ (sel = 3 → i = .csessionReadData) ∧
      (sel = 4 → i = .csessionMotorEnable) ∧ (sel = 5 → i = .csessionGetStatus) ∧
      (sel = 6 → i = .reservedSel6) ∧ (sel = 7 → i = .reservedSel7)
    else if op = 3 then i = .init sel
    else if op = 4 then i = .poll sel
    else if op = 5 then i = .decode sel
    else if op = 6 then i = .reservedOp6 sel
    else i = .reservedOp7 sel

/-! ### Step -/

/-- A word put to the block, and a `CTRL` write, are decoded and executed; the step adds only that
the turn is taken off the list. A word that decodes to no row is ordinary data, which
`OtherWordsAreOrdinaryData` says more of; that it is put to the block like a row is the model's
choice (log 1). -/
def Obligations.StepRunsTheDecodedInstruction : Prop :=
  ∀ (s : State) (i : Instr) (rest : List Turn),
    (∀ it, s.turns = .present it :: rest → decode it.format it.bytes = .ok i →
      step s = exec i { s with turns := rest }) ∧
    (∀ v, s.turns = .write .ctrl v :: rest → decode .ctrl [v] = .ok i →
      step s = exec i { s with turns := rest }) ∧
    (∀ it e, s.turns = .present it :: rest → decode it.format it.bytes = .error e →
      step s = .next (presentOther it { s with turns := rest }))

/-- `withFetchWord` puts a word of the table where the next step fetches it; where that is, and what a
word without a format is taken for, is the model's choice (logs 4 and 9). -/
def Obligations.FetchedWordIsExecuted : Prop :=
  ∀ (s : State) (nbits w : Nat) (i : Instr), decodeTableWord nbits w = some i →
    step (s.withFetchWord nbits w) = exec i s

/-- R213, R222 and R8: without a host move the sequencer moves, and a run that is over stays as it is. A
turn left to the sequencer is one micro-step; a wait is one micro-step at a time until `BUSY` = 0 (R85).
That the schedule is a list of turns is the model's choice (log 4). -/
def Obligations.SequencerMovesBetweenHostMoves : Prop :=
  ∀ (s : State) (rest : List Turn),
    (s.turns = [] → step s = .next (microStep s)) ∧
    (runOver s = true → step s = .next s) ∧
    (s.turns = .tick :: rest → step s = .next (microStep { s with turns := rest })) ∧
    (s.turns = .wait :: rest → s.busy = 1#1 → step s = .next (microStep s)) ∧
    (s.turns = .wait :: rest → s.busy = 0#1 → step s = .next { s with turns := rest })

/-- R183, R188, R61: every instruction answers a next state in every state, and a step has no other
outcome than a next state but where a second driver takes the bus, which it refuses. That such a driver
is a turn, refused by the name `secondDriver`, is the model's choice (log 12). -/
def Obligations.NothingFaults : Prop :=
  (∀ (i : Instr) (s : State), ∃ t, exec i s = .next t) ∧
  (∀ s : State, (∃ t, step s = .next t) ∨
    ∃ l v rest, s.turns = .intruder l v :: rest ∧ step s = .refused (.secondDriver l)) ∧
  ∀ (s : State) (l : OutLine) (v : Bit) (rest : List Turn),
    s.turns = .intruder l v :: rest → step s = .refused (.secondDriver l)

/-! ### Reset and the host's registers -/

/-- R44: the machine right after reset; the spec marks these values as its own choice (D8, D9). -/
def Obligations.ResetValues : Prop :=
  let s := State.reset
  s.att = 1#1 ∧ s.clk = 1#1 ∧ s.cmd = Config.params.cmdReset ∧
  s.txb = 0x00#8 ∧ s.acc = 0x00#8 ∧ s.fr = [] ∧
  (∀ j : Fin 16, s.rf[j] = 0x00#8) ∧ s.rflen = 0#5 ∧
  (∀ j : Fin 16, s.cf[j] = 0x00#8) ∧ s.cflen = 0#5 ∧
  s.txd = 0x00#8 ∧ s.rxd = 0x00#8 ∧
  s.analog = 0#1 ∧ (∀ a : Fin 4, s.axis[a] = 127#8) ∧ s.pressed = 0x0000#16 ∧
  s.opr = 0#3 ∧ s.selr = 0#3 ∧ s.pos = .idle ∧
  s.busy = 0#1 ∧ s.done = 0#1 ∧ s.cfgFail = 0#1

/-- R210, R212: reset at any micro-step takes all of the block's state to R44's values at once, with
no line event; that what is outside the block stays is the model's choice (logs 2 to 5). -/
def Obligations.ResetAtAnyMicroStep : Prop :=
  ∀ (s : State) (rest : List Turn), s.turns = .reset :: rest →
    step s = .next
      { att := 1#1, clk := 1#1, cmd := s.params.cmdReset, txb := 0x00#8, acc := 0x00#8, fr := [],
        rf := Vector.replicate 16 0x00#8, rflen := 0#5, txd := 0x00#8,
        cf := Vector.replicate 16 0x00#8, cflen := 0#5, rxd := 0x00#8, analog := 0#1,
        axis := Vector.replicate 4 127#8, pressed := 0x0000#16, opr := 0#3, selr := 0#3,
        pos := .idle, busy := 0#1, done := 0#1, cfgFail := 0#1, params := s.params,
        peer := s.peer, reads := 0, draws := s.draws, trace := [], turns := rest,
        hostGot := s.hostGot }

/-- R45, R83: while `BUSY` = 1 a `CTRL` word and every other host write change no state. That a presented
word, and the instruction of a frame, mode, button or axis row, is host moves made at once and ignored
while `BUSY` = 1 is the model's choice (log 1); a program line of R85 would wait for `BUSY` = 0. -/
def Obligations.BusyBlockIgnoresTheHost : Prop :=
  ∀ s : State, s.busy = 1#1 →
    (∀ i : Instr, exec i s = .next s) ∧
    (∀ r v rest, s.turns = .write r v :: rest → step s = .next { s with turns := rest }) ∧
    (∀ it rest, s.turns = .present it :: rest → step s = .next { s with turns := rest })

/-- R29, R31, R32, R33, R34, R83: what a host write stores while `BUSY` = 0; a write of `RFLEN` above 16
is refused, whatever its low bits. -/
def Obligations.HostWritesStore : Prop :=
  ∀ (s : State) (v : Byte) (rest : List Turn), s.busy = 0#1 →
    (s.turns = .write .txd v :: rest → step s = .next { s with turns := rest, txd := v }) ∧
    (s.turns = .write .cflen v :: rest →
      step s = .next { s with turns := rest, cflen := BitVec.ofNat 5 (v.toNat % 32) }) ∧
    (s.turns = .write .rflen v :: rest → v.toNat ≤ 16 →
      step s = .next { s with turns := rest, rflen := BitVec.ofNat 5 v.toNat }) ∧
    (s.turns = .write .rflen v :: rest → 16 < v.toNat →
      step s = .next { s with turns := rest }) ∧
    (∀ j : Fin 16, s.turns = .write (.cf j) v :: rest →
      ∃ cf, step s = .next { s with turns := rest, cf := cf } ∧
        ∀ k : Fin 16, cf[k] = if k = j then v else s.cf[k]) ∧
    (∀ j : Fin 16, s.turns = .write (.rf j) v :: rest →
      ∃ rf, step s = .next { s with turns := rest, rf := rf } ∧
        ∀ k : Fin 16, rf[k] = if k = j then v else s.rf[k])

/-- R28 for `STATUS`; that the other read-only registers ignore a write too is the model's reading
(log 7). -/
def Obligations.ReadOnlyRegistersIgnoreWrites : Prop :=
  ∀ (s : State) (r : HReg) (v : Byte) (rest : List Turn), s.turns = .write r v :: rest →
    r ∈ [.status, .rxd, .result, .pressed, .axis 0, .axis 1, .axis 2, .axis 3, .lines] →
    step s = .next { s with turns := rest }

/-- R45, R27, R28, R35 to R38: a host read changes nothing of the block and makes no line event, and
returns the register's value, but for a result register while `BUSY` = 1, where it is a free value and
the model's counter of draws may advance (log 5). -/
def Obligations.HostReadsReturnTheRegister : Prop :=
  ∀ (s : State) (r : HReg) (rest : List Turn), s.turns = .read r :: rest →
    ∃ v d, step s = .next { s with turns := rest, hostGot := v, draws := d } ∧
      (s.busy = 0#1 ∨ r ∈ [.ctrl, .status, .txd, .cflen, .lines] ∨ (∃ j, r = .cf j) →
        d = s.draws ∧ v.toNat =
          match r with
          | .ctrl => 0
          | .status => s.busy.toNat + 2 * s.done.toNat + 4 * s.cfgFail.toNat
          | .txd => s.txd.toNat
          | .rxd => s.rxd.toNat
          | .cflen => s.cflen.toNat
          | .rflen => s.rflen.toNat
          | .result => s.analog.toNat
          | .pressed => s.pressed.toNat
          | .axis a => s.axis[a].toNat
          | .lines => s.att.toNat + 2 * s.clk.toNat + 4 * s.cmd.toNat
          | .cf j => s.cf[j].toNat
          | .rf j => s.rf[j].toNat)

/-! ### The operations, start to end -/

/-- R117, R111, R113: `XCHG` starts by loading `TXB` and in 33 micro-steps exchanges the byte: the
trace is `BX(TXD; r)`, and `RXD` and `ACC` are the byte `r` sampled. Besides these `TXB`, `OPR`, `SELR`,
`DONE`, `CMD`, `CLK` and the model's two counters are written, and no other field. That `SELR` takes the
`SEL` of the word (R27, R46) is the model's reading (log 10). -/
def Obligations.XchgExchangesOneByte : Prop :=
  ∀ (s : State) (sel : BitVec 3), s.busy = 0#1 →
    let t := { s with txb := s.txd, opr := 0#3, selr := sel, busy := 1#1, done := 0#1, pos := .bxs 0 }
    exec (.xchg sel) s = .next t ∧
    ∃ r : Byte, microSteps 33 t =
      { s with
        txb := s.txd, acc := r, rxd := r, opr := 0#3, selr := sel, busy := 0#1, done := 1#1
        pos := .idle, clk := 1#1, cmd := bitOf s.txd 7
        reads := s.reads + 8, draws := s.draws + 8
        trace := s.trace ++ byteEvents s.txd r }

/-- R131, R126, R133: `SESSION` sends `CF[0..CFLEN-1]` in one attention window of `33*n + 2` events
and fills `RF` with the `n` bytes received. That `SELR` takes the `SEL` of the word (R27, R46) is the
model's reading (log 10). -/
def Obligations.SessionSendsTheHostFrame : Prop :=
  ∀ (s : State) (sel : BitVec 3), s.busy = 0#1 → 8 ≤ s.cflen.toNat → s.cflen.toNat ≤ 16 →
    let f := s.cf.toList.take s.cflen.toNat
    let t := { s with fr := f, opr := 1#3, selr := sel, busy := 1#1, done := 0#1, pos := .ses 0 0 }
    exec (.session sel) s = .next t ∧ f.length = s.cflen.toNat ∧
    ∃ r : List Byte, r.length = f.length ∧ microSteps (33 * f.length + 2) t =
      { s with
        fr := f, opr := 1#3, selr := sel, busy := 0#1, done := 1#1, pos := .idle
        att := 1#1, clk := 1#1, cmd := bitOf (f.getLastD 0#8) 7
        txb := f.getLastD 0#8, acc := r.getLastD 0#8
        rf := filled s.rf r, rflen := BitVec.ofNat 5 f.length
        reads := s.reads + 8 * f.length, draws := s.draws + 8 * f.length
        trace := s.trace ++ sessionEvents f r }

/-- R131, R83: `SESSION` on a frame shorter than 8 or longer than 16 bytes starts nothing. -/
def Obligations.SessionRefusesOtherLengths : Prop :=
  ∀ (s : State) (sel : BitVec 3), s.cflen.toNat < 8 ∨ 16 < s.cflen.toNat →
    exec (.session sel) s = .next s

/-- R132: `CSESSION sel` sends `CATALOG[SEL]`, with no reference to `CF` or `CFLEN`. -/
def Obligations.CsessionSendsItsCatalogueEntry : Prop :=
  ∀ (s : State) (i : Instr) (e : Fin 6), s.busy = 0#1 →
    (i, e) ∈ [(Instr.csessionEnterConfig, 0), (.csessionSetMode, 1), (.csessionExitConfig, 2),
      (.csessionReadData, 3), (.csessionMotorEnable, 4), (.csessionGetStatus, 5)] →
    let f := catalogEntry s.params.catalogue e
    let sel := BitVec.ofNat 3 e.val
    let t := { s with fr := f, opr := 2#3, selr := sel, busy := 1#1, done := 0#1, pos := .ses 0 0 }
    exec i s = .next t ∧
    ∃ r : List Byte, r.length = f.length ∧ microSteps (33 * f.length + 2) t =
      { s with
        fr := f, opr := 2#3, selr := sel, busy := 0#1, done := 1#1, pos := .idle
        att := 1#1, clk := 1#1, cmd := bitOf (f.getLastD 0#8) 7
        txb := f.getLastD 0#8, acc := r.getLastD 0#8
        rf := filled s.rf r, rflen := BitVec.ofNat 5 f.length
        reads := s.reads + 8 * f.length, draws := s.draws + 8 * f.length
        trace := s.trace ++ sessionEvents f r }

/-- R156, R155, R169: `POLL` is one read-data session of 299 events whose nine bytes are decoded into
the Poll Result in the last of them. That `SELR` takes the `SEL` of the word (R27, R46) is the model's
reading (log 10). -/
def Obligations.PollReadsAndDecodes : Prop :=
  ∀ (s : State) (sel : BitVec 3), s.busy = 0#1 →
    let f := s.params.catalogue.readData.toList
    let t := { s with fr := f, opr := 4#3, selr := sel, busy := 1#1, done := 0#1, pos := .ses 0 0 }
    exec (.poll sel) s = .next t ∧
    ∃ r : List Byte, r.length = 9 ∧ microSteps 299 t =
      { s with
        fr := f, opr := 4#3, selr := sel, busy := 0#1, done := 1#1, pos := .idle
        att := 1#1, clk := 1#1, cmd := bitOf (f.getLastD 0#8) 7
        txb := f.getLastD 0#8, acc := r.getLastD 0#8
        rf := filled s.rf r, rflen := 9#5
        analog := (decodeFrame 9 (filled s.rf r)).analog
        axis := (decodeFrame 9 (filled s.rf r)).axis
        pressed := (decodeFrame 9 (filled s.rf r)).pressed
        reads := s.reads + 72, draws := s.draws + 72
        trace := s.trace ++ sessionEvents f r }

/-- R140, R141, R143, R145, R148, R149: `INIT` runs enter-config, set-mode, exit-config, the settle
wait and the validation read, and `CFG_FAIL` ends 1 exactly when the mode byte is neither 0x41 nor
0x73. That `SELR` takes the `SEL` of the word (R27, R46) is the model's reading (log 10). -/
def Obligations.InitConfiguresAndValidates : Prop :=
  ∀ (s : State) (sel : BitVec 3), s.busy = 0#1 →
    let f0 := catalogEntry s.params.catalogue 0
    let f1 := catalogEntry s.params.catalogue 1
    let f2 := catalogEntry s.params.catalogue 2
    let f3 := s.params.catalogue.readData.toList
    let t := { s with
      fr := f0, opr := 3#3, selr := sel, busy := 1#1, done := 0#1, cfgFail := 0#1, pos := .ses 0 0 }
    exec (.init sel) s = .next t ∧
    ∃ r0 r1 r2 r3 : List Byte, r0.length = f0.length ∧ r1.length = f1.length ∧
      r2.length = f2.length ∧ r3.length = 9 ∧
      microSteps (33 * (f0.length + f1.length + f2.length + 9) + 9) t =
      { s with
        fr := f3, opr := 3#3, selr := sel, busy := 0#1, done := 1#1, pos := .idle
        cfgFail := if r3.getD 1 0#8 = 0x41#8 ∨ r3.getD 1 0#8 = 0x73#8 then 0#1 else 1#1
        att := 1#1, clk := 1#1, cmd := bitOf (f3.getLastD 0#8) 7
        txb := f3.getLastD 0#8, acc := r3.getLastD 0#8
        rf := filled (filled (filled (filled s.rf r0) r1) r2) r3, rflen := 9#5
        reads := s.reads + 8 * (f0.length + f1.length + f2.length + 9)
        draws := s.draws + 8 * (f0.length + f1.length + f2.length + 9)
        trace := s.trace ++ sessionEvents f0 r0 ++ sessionEvents f1 r1 ++ sessionEvents f2 r2
          ++ .waitSettle :: sessionEvents f3 r3 }

/-- R166, R39: `DECODE` writes the Poll Result of `RF`, `RFLEN` and `DONE` in one micro-step, with no
line event. That it writes `OPR` and `SELR` as every start does (R27, R46) is the model's reading (log
10), and that above 16 bytes it starts nothing (U7) is log 11. -/
def Obligations.DecodeWritesThePollResult : Prop :=
  ∀ (s : State) (sel : BitVec 3), s.busy = 0#1 →
    (s.rflen.toNat ≤ 16 → exec (.decode sel) s = .next
      { s with
        opr := 5#3, selr := sel, done := 1#1, pos := .idle
        analog := (decodeFrame s.rflen.toNat s.rf).analog
        axis := (decodeFrame s.rflen.toNat s.rf).axis
        pressed := (decodeFrame s.rflen.toNat s.rf).pressed }) ∧
    (16 < s.rflen.toNat → exec (.decode sel) s = .next s)

/-- R83, R27: a word that starts nothing changes no state. -/
def Obligations.ReservedWordsChangeNothing : Prop :=
  ∀ (s : State) (sel : BitVec 3) (low6 : BitVec 6) (low7 : BitVec 7),
    exec (.reservedOp6 sel) s = .next s ∧ exec (.reservedOp7 sel) s = .next s ∧
    exec (.reservedBit6 low6) s = .next s ∧ exec .reservedSel6 s = .next s ∧
    exec .reservedSel7 s = .next s ∧ exec (.nopStart0 low7) s = .next s

/-! ### The frame words of the table: that a word of a frame is put to the block by the host moves of
R85 is the model's choice (log 1) -/

/-- R101 to R106 with R85 and R131: each default Command Frame is sent as `SESSION [b0, ..., b8]`
sends it, 299 micro-steps. That the word is these host moves is the model's choice (log 1), and that
their `SESSION` writes 0 to `SELR` (R27, R46) is its reading (log 10). -/
def Obligations.FrameWordsAreSent : Prop :=
  ∀ (s : State) (i : Instr) (f : List Byte), s.busy = 0#1 →
    (i, f) ∈ [
      (Instr.frameEnterConfig, [0x01#8, 0x43, 0x00, 0x01, 0x00, 0x00, 0x00, 0x00, 0x00]),
      (.frameSetMode, [0x01, 0x44, 0x00, 0x01, 0x00, 0x00, 0x00, 0x00, 0x00]),
      (.frameExitConfig, [0x01, 0x43, 0x00, 0x00, 0x5A, 0x5A, 0x5A, 0x5A, 0x5A]),
      (.frameReadData, [0x01, 0x42, 0x00, 0x00, 0x00, 0x00, 0x00, 0x00, 0x00]),
      (.frameMotorEnable, [0x01, 0x4D, 0x00, 0x00, 0x01, 0xFF, 0xFF, 0xFF, 0xFF]),
      (.frameGetStatus, [0x01, 0x45, 0x00, 0x5A, 0x5A, 0x5A, 0x5A, 0x5A, 0x5A])] →
    let t := { s with
      cf := filled s.cf f, cflen := 9#5, fr := f, opr := 1#3, selr := 0#3, busy := 1#1
      done := 0#1, pos := .ses 0 0 }
    exec i s = .next t ∧
    ∃ r : List Byte, r.length = 9 ∧ microSteps 299 t =
      { s with
        cf := filled s.cf f, cflen := 9#5, fr := f, opr := 1#3, selr := 0#3, busy := 0#1
        done := 1#1, pos := .idle, att := 1#1, clk := 1#1, cmd := bitOf (f.getLastD 0#8) 7
        txb := f.getLastD 0#8, acc := r.getLastD 0#8
        rf := filled s.rf r, rflen := 9#5, reads := s.reads + 72, draws := s.draws + 72
        trace := s.trace ++ sessionEvents f r }

/-- R75, R159, R161: the mode bytes, as response byte 1 of a nine-byte frame. The host moves are the
model's choice (log 1), and that their `DECODE` writes `OPR` and `SELR` is its reading (log 10). -/
def Obligations.ModeWordsSetTheMode : Prop :=
  ∀ s : State, s.busy = 0#1 →
    exec .modeDigital s = .next
      { s with
        rf := s.rf.set 1 0x41#8, rflen := 9#5, opr := 5#3, selr := 0#3, done := 1#1, pos := .idle
        analog := 0#1, axis := #v[127, 127, 127, 127], pressed := ~~~ (s.rf[4] ++ s.rf[3]) } ∧
    exec .modeAnalog s = .next
      { s with
        rf := s.rf.set 1 0x73#8, rflen := 9#5, opr := 5#3, selr := 0#3, done := 1#1, pos := .idle
        analog := 1#1, axis := #v[s.rf[5], s.rf[6], s.rf[7], s.rf[8]]
        pressed := ~~~ (s.rf[4] ++ s.rf[3]) }

/-- R76, R160, R55: a mask in which the bit of a button is clear, as response bytes 3 and 4 of a
nine-byte frame: that button is in the Button Set, and the set is the complement of the mask. The
host moves are the model's choice (log 1), and that their `DECODE` writes `OPR` and `SELR` is its
reading (log 10). -/
def Obligations.ButtonWordsPressTheButton : Prop :=
  ∀ (s : State) (m : BitVec 16) (i : Instr) (k : Nat), s.busy = 0#1 → m.getLsbD k = false →
    (i, k) ∈ [(Instr.buttonSelect m, 0), (.buttonL3 m, 1), (.buttonR3 m, 2), (.buttonStart m, 3),
      (.buttonUp m, 4), (.buttonRight m, 5), (.buttonDown m, 6), (.buttonLeft m, 7),
      (.buttonL2 m, 8), (.buttonR2 m, 9), (.buttonL1 m, 10), (.buttonR1 m, 11),
      (.buttonTriangle m, 12), (.buttonCircle m, 13), (.buttonCross m, 14), (.buttonSquare m, 15)] →
    (~~~ m).getLsbD k = true ∧
    exec i s = .next
      { s with
        rf := (s.rf.set 3 (m.extractLsb' 0 8)).set 4 (m.extractLsb' 8 8), rflen := 9#5
        opr := 5#3, selr := 0#3, done := 1#1, pos := .idle
        analog := if s.rf[1] = 0x73#8 then 1#1 else 0#1
        axis := if s.rf[1] = 0x73#8 then #v[s.rf[5], s.rf[6], s.rf[7], s.rf[8]]
          else #v[127, 127, 127, 127]
        pressed := ~~~ m }

/-- R77, R161: an axis byte, as response byte `5 + a` of a nine-byte frame: verbatim in `AXIS[a]` when
the mode is Analog, 127 when it is not. The host moves are the model's choice (log 1), and that their
`DECODE` writes `OPR` and `SELR` is its reading (log 10). -/
def Obligations.AxisWordsSetTheAxis : Prop :=
  ∀ (s : State) (v : Byte) (i : Instr) (a : Fin 4), s.busy = 0#1 →
    (i, a) ∈ [(Instr.axisRightX v, 0), (.axisRightY v, 1), (.axisLeftX v, 2), (.axisLeftY v, 3)] →
    ∃ t, exec i s = .next t ∧
      t.axis[a] = (if s.rf[1] = 0x73#8 then v else 127#8) ∧
      (∀ b : Fin 4, b ≠ a →
        t.axis[b] = if s.rf[1] = 0x73#8 then s.rf[5 + b.val] else 127#8) ∧
      (∀ j : Fin 16, t.rf[j] = if j.val = 5 + a.val then v else s.rf[j]) ∧
      t = { s with
        rf := t.rf, axis := t.axis, rflen := 9#5, opr := 5#3, selr := 0#3, done := 1#1
        pos := .idle, analog := if s.rf[1] = 0x73#8 then 1#1 else 0#1
        pressed := ~~~ (s.rf[4] ++ s.rf[3]) }

/-- R85: a frame word is the register writes `CF[j] <- bj`, `CFLEN <- 9`, `CTRL <- 0x81`, and a field
word the writes of `RF`, `RFLEN <- 9`, `CTRL <- 0x85`, one after another. -/
def Obligations.FrameWordsAreHostMoves : Prop :=
  (∀ (s : State) (bs : Vector Byte 9), s.busy = 0#1 →
    exec (.session 0) (hostWrite .cflen 9
      ((List.finRange 9).foldl (fun u j => hostWrite (.cf (j.castLE (by decide))) bs[j] u) s))
      = .next (presentFrame bs s)) ∧
  (∀ (s : State) (b : Byte), s.busy = 0#1 →
    exec (.decode 0) (hostWrite .rflen 9 (hostWrite (.rf 1) b s)) = .next (presentMode b s)) ∧
  (∀ (s : State) (m : BitVec 16), s.busy = 0#1 →
    exec (.decode 0) (hostWrite .rflen 9 (hostWrite (.rf 4) (m.extractLsb' 8 8)
      (hostWrite (.rf 3) (m.extractLsb' 0 8) s))) = .next (presentMask m s)) ∧
  (∀ (s : State) (a : Fin 4) (v : Byte), s.busy = 0#1 →
    exec (.decode 0) (hostWrite .rflen 9 (hostWrite (.rf ⟨5 + a.val, by omega⟩) v s))
      = .next (presentAxis a v s))

/-- R75, R76, R73, R85: on an idle block a presented word that decodes to no row is ordinary data: nine
other bytes are sent as a Command Frame, an unrecognized mode byte is a mode byte that is not Analog,
and a mask in which the button looked at is not pressed is a mask. There is no such `CTRL` word and no
such axis byte. The host moves are the model's choice (log 1), and that their `DECODE` writes `OPR` and
`SELR` is its reading (log 10). -/
def Obligations.OtherWordsAreOrdinaryData : Prop :=
  ∀ (s : State) (it : Item) (err : DecodeError) (rest : List Turn), s.busy = 0#1 →
    s.turns = .present it :: rest → decode it.format it.bytes = .error err →
    match it with
    | .ctrl _ => False
    | .frame bs => step s = .next
        { s with
          turns := rest, cf := filled s.cf bs.toList, cflen := 9#5, fr := bs.toList, opr := 1#3
          selr := 0#3, busy := 1#1, done := 0#1, pos := .ses 0 0 }
    | .mode b => b ≠ 0x41#8 ∧ b ≠ 0x73#8 ∧ step s = .next
        { s with
          turns := rest, rf := s.rf.set 1 b, rflen := 9#5, opr := 5#3, selr := 0#3, done := 1#1
          pos := .idle, analog := 0#1, axis := #v[127, 127, 127, 127]
          pressed := ~~~ (s.rf[4] ++ s.rf[3]) }
    | .mask k m => m.getLsbD k.val = true ∧ step s = .next
        { s with
          turns := rest
          rf := (s.rf.set 3 (m.extractLsb' 0 8)).set 4 (m.extractLsb' 8 8), rflen := 9#5
          opr := 5#3, selr := 0#3, done := 1#1, pos := .idle
          analog := if s.rf[1] = 0x73#8 then 1#1 else 0#1
          axis := if s.rf[1] = 0x73#8 then #v[s.rf[5], s.rf[6], s.rf[7], s.rf[8]]
            else #v[127, 127, 127, 127]
          pressed := ~~~ m }
    | .axis _ _ => False

/-! ### The decoder -/

/-- R158: a frame of fewer than nine bytes gives the degraded Poll Result, whatever its content, and
`DECODE` on it sets no flag but `DONE` (R166, R27). That `DECODE` writes `OPR` and `SELR` is the model's
reading (log 10). -/
def Obligations.ShortFrameIsNeutral : Prop :=
  (∀ (n : Nat) (r : Vector Byte 16), n < 9 →
    decodeFrame n r = { analog := 0#1, axis := #v[127, 127, 127, 127], pressed := 0x0000#16 }) ∧
  ∀ (s : State) (sel : BitVec 3), s.busy = 0#1 → s.rflen.toNat < 9 →
    exec (.decode sel) s = .next
      { s with
        opr := 5#3, selr := sel, done := 1#1, pos := .idle
        analog := 0#1, axis := #v[127, 127, 127, 127], pressed := 0x0000#16 }

/-- R157, R159, R160, R161, R164: a frame of nine bytes or more, field by field. -/
def Obligations.FullFrameDecodes : Prop :=
  ∀ (n : Nat) (r : Vector Byte 16), 9 ≤ n →
    ((decodeFrame n r).analog = 1#1 ↔ r[1] = 0x73#8) ∧
    (r[1] = 0x73#8 → (decodeFrame n r).axis = #v[r[5], r[6], r[7], r[8]]) ∧
    (r[1] ≠ 0x73#8 → (decodeFrame n r).axis = #v[127, 127, 127, 127]) ∧
    (∀ k, k < 8 → (decodeFrame n r).pressed.getLsbD k = !r[3].getLsbD k) ∧
    (∀ k, k < 8 → (decodeFrame n r).pressed.getLsbD (8 + k) = !r[4].getLsbD k)

/-- R161: the axes are bytes 5 to 8 verbatim exactly when the decoder says Analog, and 127 when it does
not, whatever the length and the other bytes. -/
def Obligations.AxesFollowTheMode : Prop :=
  ∀ (n : Nat) (r : Vector Byte 16),
    ((decodeFrame n r).analog = 1#1 →
      (decodeFrame n r).axis[0] = r[5] ∧ (decodeFrame n r).axis[1] = r[6] ∧
      (decodeFrame n r).axis[2] = r[7] ∧ (decodeFrame n r).axis[3] = r[8]) ∧
    ((decodeFrame n r).analog = 0#1 → ∀ a : Fin 4, (decodeFrame n r).axis[a] = 127#8)

/-- R164: a full frame with an unrecognized mode byte is decoded as not Analog, its buttons as usual,
and no signal is raised; the spec marks this reading as its decision D11. That `DECODE` writes `OPR` and
`SELR` is the model's reading (log 10). -/
def Obligations.UnrecognizedModeDecodes : Prop :=
  (∀ (n : Nat) (r : Vector Byte 16), 9 ≤ n → r[1] ≠ 0x41#8 → r[1] ≠ 0x73#8 →
    decodeFrame n r =
      { analog := 0#1, axis := #v[127, 127, 127, 127], pressed := ~~~ (r[4] ++ r[3]) }) ∧
  ∀ (s : State) (sel : BitVec 3), s.busy = 0#1 → 9 ≤ s.rflen.toNat → s.rflen.toNat ≤ 16 →
    s.rf[1] ≠ 0x41#8 → s.rf[1] ≠ 0x73#8 →
    exec (.decode sel) s = .next
      { s with
        opr := 5#3, selr := sel, done := 1#1, pos := .idle
        analog := 0#1, axis := #v[127, 127, 127, 127], pressed := ~~~ (s.rf[4] ++ s.rf[3]) }

/-- R163: bytes 0, 2 and 9 to 15 are never read, nor bytes 5 to 8 of a frame that is not Analog, nor
how far above nine the length is. -/
def Obligations.DecoderIgnoresOtherBytes : Prop :=
  ∀ (n n' : Nat) (r r' : Vector Byte 16), 9 ≤ n → 9 ≤ n' →
    r[1] = r'[1] → r[3] = r'[3] → r[4] = r'[4] →
    (r[1] = 0x73#8 → r[5] = r'[5] ∧ r[6] = r'[6] ∧ r[7] = r'[7] ∧ r[8] = r'[8]) →
    decodeFrame n r = decodeFrame n' r'

/-- R76, R36: which identifier stands for which bit of `PRESSED`, one entry per pressed button. -/
def Obligations.ButtonSetNamesTheClearBits : Prop :=
  ∀ p : BitVec 16,
    (buttonSet p).Nodup ∧
    ∀ (b : Button) (k : Nat),
      (b, k) ∈ [(Button.select, 0), (.l3, 1), (.r3, 2), (.start, 3), (.up, 4), (.right, 5),
        (.down, 6), (.left, 7), (.l2, 8), (.r2, 9), (.l1, 10), (.r1, 11), (.triangle, 12),
        (.circle, 13), (.cross, 14), (.square, 15)] →
      (b ∈ buttonSet p ↔ p.getLsbD k = true)

/-- R78: the Poll Result as one 49-bit value. -/
def Obligations.PollRecordLayout : Prop :=
  ∀ s : State,
    (pollRecord s).toNat = s.analog.toNat + 2 ^ 1 * s.axis[0].toNat + 2 ^ 9 * s.axis[1].toNat
      + 2 ^ 17 * s.axis[2].toNat + 2 ^ 25 * s.axis[3].toNat + 2 ^ 33 * s.pressed.toNat

/-! ### Traces -/

/-- R134: the counts of a session of `n` bytes. -/
def Obligations.SessionCounts : Prop :=
  ∀ (n : Nat) (f r : List Byte), f.length = n → r.length = n →
    (sessionEvents f r).length = 33 * n + 2 ∧
    (writesOf .att (sessionEvents f r)).length = 2 ∧
    (writesOf .cmd (sessionEvents f r)).length = 9 * n ∧
    (writesOf .clk (sessionEvents f r)).length = 16 * n ∧
    (readsOf (sessionEvents f r)).length = 8 * n ∧
    (n = 8 → (sessionEvents f r).length = 266) ∧ (n = 9 → (sessionEvents f r).length = 299) ∧
    (n = 16 → (sessionEvents f r).length = 530)

/-- R128, R115, R53: a session that starts with `ATT` high makes one falling and one rising edge on
it; an exchange that starts with `CLK` high makes eight and eight on that; the bits go out and come
in least significant first. -/
def Obligations.EdgesThePeerSees : Prop :=
  ∀ (f r : List Byte) (b a : Byte), f.length = r.length →
    writesOf .att (sessionEvents f r) = [0#1, 1#1] ∧
    edgesTo 0#1 1#1 (writesOf .att (sessionEvents f r)) = 1 ∧
    edgesTo 1#1 1#1 (writesOf .att (sessionEvents f r)) = 1 ∧
    edgesTo 0#1 1#1 (writesOf .clk (sessionEvents f r)) = 8 * f.length ∧
    edgesTo 1#1 1#1 (writesOf .clk (sessionEvents f r)) = 8 * f.length ∧
    writesOf .att (byteEvents b a) = [] ∧
    writesOf .cmd (byteEvents b a) = 0#1 :: (List.range 8).map (bitOf b) ∧
    readsOf (byteEvents b a) = (List.range 8).map (bitOf a)

/-- R221, R116, R143: the least time of a session of `n` bytes is `16*n` clock phases, 144 for the nine
bytes of a `POLL`; that of `INIT` is its sessions' and the settle delay. -/
def Obligations.LeastDurations : Prop :=
  ∀ (p : Config.Params) (f r f1 r1 f2 r2 f3 r3 : List Byte), f.length = r.length →
    f1.length = r1.length → f2.length = r2.length → f3.length = r3.length →
    leastTime p (sessionEvents f r) = 16 * f.length * p.tHalf ∧
    (f.length = 9 → leastTime p (sessionEvents f r) = 144 * p.tHalf) ∧
    leastTime p (sessionEvents f r ++ sessionEvents f1 r1 ++ sessionEvents f2 r2
      ++ .waitSettle :: sessionEvents f3 r3) =
      16 * (f.length + f1.length + f2.length + f3.length) * p.tHalf + p.tSettle

/-- R9, R25, R59: every micro-step of an operation is exactly one event, appended to the trace; an
idle block makes none. -/
def Obligations.OneEventPerMicroStep : Prop :=
  ∀ s : State,
    (s.pos ≠ .idle → ∃ e, (microStep s).trace = s.trace ++ [e]) ∧
    (s.pos = .idle → microStep s = s)

/-! ### Peers -/

/-- The source's property 1, R118: through a loopback peer every byte comes back as it was sent, by
`XCHG` and by `SESSION`. -/
def Obligations.LoopbackRecoversWhatIsSent : Prop :=
  ∀ (s : State) (sel : BitVec 3), s.busy = 0#1 → s.peer = .loopback →
    (∃ t, exec (.xchg sel) s = .next t ∧ (microSteps 33 t).rxd = s.txd) ∧
    (8 ≤ s.cflen.toNat → s.cflen.toNat ≤ 16 →
      ∃ t, exec (.session sel) s = .next t ∧
        (microSteps (33 * s.cflen.toNat + 2) t).rf =
          filled s.rf (s.cf.toList.take s.cflen.toNat))

/-- R118, R114, 95_test_vectors.md section 0: a peer that presents a byte least significant bit first
gives that byte, so any of the 256 answers is possible whatever is sent. -/
def Obligations.ScriptedPeerGivesItsByte : Prop :=
  ∀ (s : State) (sel : BitVec 3) (bytes : List Byte) (m : Nat) (b : Byte), s.busy = 0#1 →
    s.peer = .script bytes → s.reads = 8 * m → bytes[m]? = some b →
    ∃ t, exec (.xchg sel) s = .next t ∧ (microSteps 33 t).rxd = b

/-- The source's property 8, R165: two `POLL`s answered by the same nine bytes give the same Poll
Result. -/
def Obligations.EqualAnswersGiveEqualPollResults : Prop :=
  ∀ (s : State) (sel : BitVec 3) (f : List Byte) (bytes : List Byte) (m : Nat), s.busy = 0#1 →
    s.peer = .script bytes → s.reads = 8 * m → f.length = 9 →
    (bytes.drop m).take 9 = f → (bytes.drop (m + 9)).take 9 = f →
    ∃ t u, exec (.poll sel) s = .next t ∧ exec (.poll sel) (microSteps 299 t) = .next u ∧
      (microSteps 299 u).analog = (microSteps 299 t).analog ∧
      (microSteps 299 u).axis = (microSteps 299 t).axis ∧
      (microSteps 299 u).pressed = (microSteps 299 t).pressed ∧
      (microSteps 299 t).rf = filled s.rf f

/-! ### The whole machine -/

/-- The reset state meets the invariant. -/
def Obligations.ResetMeetsTheInvariant : Prop :=
  ∀ p : Config.Params, Inv State.reset ∧ Inv (State.resetWith p)

/-- R25, R26, R63, R71, R125, R128, R24: every step, whatever the host and the peer do, keeps `BUSY`
at 1 exactly while an operation is in progress, `ATT` low exactly from the first event of a session
to its last, `CLK` low only inside a bit cell, the position legal for the operation, the frame in
flight the operation's own, `RFLEN` the number of bytes received, `CFG_FAIL` 0 during `INIT`, and
the axes centred when not Analog. -/
def Obligations.EveryStepKeepsTheInvariant : Prop :=
  ∀ s t : State, Inv s → step s = .next t → Inv t

/-- R223: from every state that meets the invariant, the operation in progress ends after exactly
`remaining s` micro-steps, whatever the peer does, and that is at most
33*(16+16+16+9)+9. -/
def Obligations.EveryOperationEnds : Prop :=
  ∀ s : State, Inv s →
    (microSteps (remaining s) s).pos = .idle ∧
    (∀ m, m < remaining s → (microSteps m s).pos ≠ .idle) ∧
    remaining s ≤ 1890

/-- R40, R107: no step changes the parameters, and every admissible catalogue has entries of 8 to 16
bytes, read-data of 9. -/
def Obligations.CatalogueIsImmutable : Prop :=
  (∀ s t : State, step s = .next t → t.params = s.params) ∧
  ∀ (c : Config.Catalogue) (e : Fin 6),
    8 ≤ (catalogEntry c e).length ∧ (catalogEntry c e).length ≤ 16 ∧
    (catalogEntry c 3).length = 9

/-- R39, R210: the micro-step that ends a `POLL` is the only one that writes the Poll Result, and it
writes what the decoder gives; and a step of the whole machine changes the Poll Result only where it
is a reset, that micro-step, or on an idle block a `DECODE` or a field word (log 1), which writes what
the decoder gives for the frame it leaves. -/
def Obligations.OnlyPollDecodes : Prop :=
  (∀ s : State,
    ((microStep s).analog = s.analog ∧ (microStep s).axis = s.axis ∧
      (microStep s).pressed = s.pressed) ∨
    (s.opr = 4#3 ∧ (∃ o p, s.pos = .ses o p ∧ 33 * s.fr.length < p) ∧
      (microStep s).analog = (decodeFrame s.rflen.toNat s.rf).analog ∧
      (microStep s).axis = (decodeFrame s.rflen.toNat s.rf).axis ∧
      (microStep s).pressed = (decodeFrame s.rflen.toNat s.rf).pressed ∧
      (microStep s).pos = .idle)) ∧
  ∀ s t : State, step s = .next t →
    t.analog ≠ s.analog ∨ t.axis ≠ s.axis ∨ t.pressed ≠ s.pressed →
    (∃ rest, s.turns = .reset :: rest) ∨
    (s.opr = 4#3 ∧ (∃ o p, s.pos = .ses o p ∧ 33 * s.fr.length < p) ∧
      t.analog = (decodeFrame s.rflen.toNat s.rf).analog ∧
      t.axis = (decodeFrame s.rflen.toNat s.rf).axis ∧
      t.pressed = (decodeFrame s.rflen.toNat s.rf).pressed ∧ t.pos = .idle) ∨
    (s.busy = 0#1 ∧ t.opr = 5#3 ∧ t.done = 1#1 ∧ t.pos = .idle ∧
      t.analog = (decodeFrame t.rflen.toNat t.rf).analog ∧
      t.axis = (decodeFrame t.rflen.toNat t.rf).axis ∧
      t.pressed = (decodeFrame t.rflen.toNat t.rf).pressed ∧
      ((∃ v sel rest, (s.turns = .write .ctrl v :: rest ∨ s.turns = .present (.ctrl v) :: rest) ∧
          decode .ctrl [v] = .ok (.decode sel)) ∨
        (∃ b rest, s.turns = .present (.mode b) :: rest) ∨
        (∃ k m rest, s.turns = .present (.mask k m) :: rest) ∨
        ∃ a b rest, s.turns = .present (.axis a b) :: rest))

/-- R26, R187, R150: `CFG_FAIL` is raised only by the last micro-step of `INIT`, on an unrecognized
mode byte, and is cleared only by reset and by the start of an `INIT`. -/
def Obligations.OnlyInitSignalsConfigurationFailure : Prop :=
  ∀ s t : State, step s = .next t →
    (t.cfgFail ≠ s.cfgFail → t.cfgFail = 1#1 →
      s.opr = 3#3 ∧ (∃ p, s.pos = .ses 3 p ∧ 33 * s.fr.length < p) ∧
      s.rf[1] ≠ 0x41#8 ∧ s.rf[1] ≠ 0x73#8 ∧ t.pos = .idle ∧ t.done = 1#1) ∧
    (t.cfgFail ≠ s.cfgFail → t.cfgFail = 0#1 →
      (∃ rest, s.turns = .reset :: rest) ∨ (t.opr = 3#3 ∧ t.pos = .ses 0 0 ∧ s.busy = 0#1))

/-- R85, R156: `POLL` behaves as `CSESSION READ_DATA` followed by `DECODE`, against any peer: only the
latched operation and its `SEL` tell them apart at the end. That `SELR` takes the `SEL` of the words
(R27, R46) is the model's reading (log 10). -/
def Obligations.PollIsReadDataThenDecode : Prop :=
  ∀ (s : State) (sel : BitVec 3), s.busy = 0#1 →
    ∃ t u v, exec .csessionReadData s = .next t ∧
      exec (.decode 0) (microSteps 299 t) = .next u ∧ exec (.poll sel) s = .next v ∧
      microSteps 299 v = { u with opr := 4#3, selr := sel }

/-- R26, R186: no operation reads `CFG_FAIL`: every instruction but `INIT`, and every micro-step of an
operation other than `INIT`, does the same whatever it is, and leaves it as it was. -/
def Obligations.NoOperationReadsConfigurationFailure : Prop :=
  ∀ (s : State) (c : Bit),
    (∀ i : Instr, (∀ sel, i ≠ .init sel) → ∃ t, exec i s = .next t ∧ t.cfgFail = s.cfgFail ∧
      exec i { s with cfgFail := c } = .next { t with cfgFail := c }) ∧
    (s.opr ≠ 3#3 → (microStep s).cfgFail = s.cfgFail ∧
      microStep { s with cfgFail := c } = { microStep s with cfgFail := c })

/-- R62, R24: from the start of a session to its last event no step but a reset changes the frame in
flight, whatever the host writes. -/
def Obligations.FrameInFlightIsLatched : Prop :=
  ∀ (s t : State) (o : Fin 4) (p : Nat), s.busy = 1#1 → s.pos = .ses o p →
    p ≤ 33 * s.fr.length → (∀ rest, s.turns ≠ .reset :: rest) → step s = .next t →
    t.fr = s.fr

/-- R110, R113, R117: a micro-step of `XCHG` touches only `CMD`, `CLK`, `ACC`, the record of events and,
with the last, `RXD` and the flags; in particular not `ATT`, `RF` or `RFLEN`. -/
def Obligations.XchgMicroStepFrame : Prop :=
  ∀ (s : State) (k : Fin 33), s.pos = .bxs k →
    ∃ cmd clk acc reads draws e,
      microStep s =
        if k = 32 then
          { s with
            cmd := cmd, clk := clk, acc := acc, reads := reads, draws := draws
            trace := s.trace ++ [e], rxd := acc, busy := 0#1, done := 1#1, pos := .idle }
        else
          { s with
            cmd := cmd, clk := clk, acc := acc, reads := reads, draws := draws
            trace := s.trace ++ [e], pos := .bxs (k + 1) }

/-- R23, R24, R126, R129: a micro-step of a session before its last touches only the latches, `TXB`,
`ACC`, `RF`, `RFLEN`, the position and the record of events. The first drives `ATT` low and clears
`RFLEN`; the first event of byte `j` loads `TXB` with it; the last event of byte `j` puts `ACC` into
`RF[j]` and `j + 1` into `RFLEN`; at every other event these stay as they were. That `TXB` is loaded with
the first event of the byte, where R23 says only before it, is the model's reading (log 14). -/
def Obligations.SessionMicroStepFrame : Prop :=
  ∀ (s : State) (o : Fin 4) (p : Nat), s.pos = .ses o p → p ≤ 33 * s.fr.length →
    ∃ att cmd clk txb acc rf rflen reads draws e,
      microStep s =
        { s with
          att := att, cmd := cmd, clk := clk, txb := txb, acc := acc, rf := rf, rflen := rflen
          reads := reads, draws := draws, trace := s.trace ++ [e], pos := .ses o (p + 1) } ∧
      (p = 0 → att = 0#1 ∧ cmd = s.cmd ∧ clk = s.clk ∧ acc = s.acc ∧ rflen = 0#5 ∧
        e = .write .att 0#1) ∧
      (p ≠ 0 → att = s.att) ∧
      (p = 0 ∨ (p - 1) % 33 ≠ 0 → txb = s.txb) ∧
      (p ≠ 0 → (p - 1) % 33 = 0 → txb = s.fr.getD ((p - 1) / 33) 0#8) ∧
      (p % 33 ≠ 0 → rflen = s.rflen) ∧
      ∀ j : Fin 16, (p ≠ 33 * (j.val + 1) → rf[j] = s.rf[j]) ∧
        (p = 33 * (j.val + 1) → rf[j] = acc ∧ rflen.toNat = j.val + 1)

/-- R143, R140, R25: at `SETTLE` the one event is the wait, no line and no other register changes, and
the validation read begins. That its frame is loaded in this micro-step is the model's reading (log
14). -/
def Obligations.SettleIsOneWait : Prop :=
  ∀ s : State, s.pos = .settle →
    microStep s =
      { s with
        trace := s.trace ++ [.waitSettle], fr := s.params.catalogue.readData.toList
        pos := .ses 3 0 }

/-- R180, R186, R182: raising Configuration Failure sets `CFG_FAIL` and nothing else; Short Frame has
no entry action; the two have the codes 1 and 2. -/
def Obligations.RaisingASignal : Prop :=
  ∀ s : State,
    raise .configurationFailure s = { s with cfgFail := 1#1 } ∧ raise .shortFrame s = s ∧
    signalCode (some .configurationFailure) = 1 ∧ signalCode (some .shortFrame) = 2 ∧
    signalCode none = 0
end

