-- ==== Sys2Proof/Laws/Encoding.lean ====
section
/-!
SUPPORT. A word and its bytes: the bytes of a word read back as that word in its format, and bytes
that read as a word are its bytes.
-/
namespace Sys2Proof

theorem vector9_cases (bs : Vector Byte 9) :
    #v[bs[0], bs[1], bs[2], bs[3], bs[4], bs[5], bs[6], bs[7], bs[8]] = bs := by
  ext i h
  have hi : i = 0 ∨ i = 1 ∨ i = 2 ∨ i = 3 ∨ i = 4 ∨ i = 5 ∨ i = 6 ∨ i = 7 ∨ i = 8 := by omega
  rcases hi with rfl | rfl | rfl | rfl | rfl | rfl | rfl | rfl | rfl <;> rfl

theorem vector9_toList (bs : Vector Byte 9) :
    bs.toList = [bs[0], bs[1], bs[2], bs[3], bs[4], bs[5], bs[6], bs[7], bs[8]] := by
  rw [show bs.toList = _ from congrArg Vector.toList (vector9_cases bs).symm]
  rfl

theorem mask_bytes (m : BitVec 16) : (m.extractLsb' 8 8 ++ m.extractLsb' 0 8 : BitVec 16) = m := by
  ext i h
  simp only [BitVec.getElem_append, BitVec.getElem_extractLsb']
  split <;> simp_all [BitVec.getLsbD_eq_getElem]

/-- A word is read back from its bytes. -/
theorem itemOf_bytes (it : Item) : itemOf it.format it.bytes = some it := by
  cases it with
  | frame bs => simp only [Item.format, Item.bytes, vector9_toList, itemOf, vector9_cases]
  | mask k m => simp only [Item.format, Item.bytes, itemOf, mask_bytes]
  | _ => rfl

theorem mask_of_bytes (hi lo : Byte) :
    ((hi ++ lo : BitVec 16).extractLsb' 0 8 = lo) ∧ ((hi ++ lo : BitVec 16).extractLsb' 8 8 = hi) := by
  constructor <;> ext i h
  · rw [BitVec.getElem_extractLsb', BitVec.getLsbD_append]
    simp [h, BitVec.getLsbD_eq_getElem]
  · rw [BitVec.getElem_extractLsb', BitVec.getLsbD_append]
    simp [h, BitVec.getLsbD_eq_getElem]

/-- Bytes that are a word are the bytes of that word. -/
theorem bytes_itemOf {f : Format} {bs : List Byte} {it : Item} (h : itemOf f bs = some it) :
    it.format = f ∧ it.bytes = bs := by
  unfold itemOf at h
  split at h <;> simp only [Option.some.injEq, reduceCtorEq] at h
  all_goals subst h; first
    | exact ⟨rfl, rfl⟩
    | (refine ⟨rfl, ?_⟩; simp only [Item.bytes, mask_of_bytes])

/-- Decoding is decoding of the word. -/
theorem decode_bytes (it : Item) : decode it.format it.bytes = decodeItem it := by
  rw [decode, itemOf_bytes]

end Sys2Proof
end

