-- ==== Sys2Proof/Laws/State.lean ====
section
/-!
SUPPORT. One lemma per field per update of the state, so that no later proof unfolds a record update.
-/
namespace Sys2Proof.Machine

variable (s : State)

/-! ### lineWrite (R51) -/
@[simp] theorem lineWrite_att_att (v : Bit) : (lineWrite .att v s).att = v := rfl
@[simp] theorem lineWrite_att_clk (v : Bit) : (lineWrite .att v s).clk = s.clk := rfl
@[simp] theorem lineWrite_att_cmd (v : Bit) : (lineWrite .att v s).cmd = s.cmd := rfl
@[simp] theorem lineWrite_clk_att (v : Bit) : (lineWrite .clk v s).att = s.att := rfl
@[simp] theorem lineWrite_clk_clk (v : Bit) : (lineWrite .clk v s).clk = v := rfl
@[simp] theorem lineWrite_clk_cmd (v : Bit) : (lineWrite .clk v s).cmd = s.cmd := rfl
@[simp] theorem lineWrite_cmd_att (v : Bit) : (lineWrite .cmd v s).att = s.att := rfl
@[simp] theorem lineWrite_cmd_clk (v : Bit) : (lineWrite .cmd v s).clk = s.clk := rfl
@[simp] theorem lineWrite_cmd_cmd (v : Bit) : (lineWrite .cmd v s).cmd = v := rfl
@[simp] theorem lineWrite_txb (l : OutLine) (v : Bit) : (lineWrite l v s).txb = s.txb := by cases l <;> rfl
@[simp] theorem lineWrite_acc (l : OutLine) (v : Bit) : (lineWrite l v s).acc = s.acc := by cases l <;> rfl
@[simp] theorem lineWrite_fr (l : OutLine) (v : Bit) : (lineWrite l v s).fr = s.fr := by cases l <;> rfl
@[simp] theorem lineWrite_rf (l : OutLine) (v : Bit) : (lineWrite l v s).rf = s.rf := by cases l <;> rfl
@[simp] theorem lineWrite_rflen (l : OutLine) (v : Bit) : (lineWrite l v s).rflen = s.rflen := by cases l <;> rfl
@[simp] theorem lineWrite_txd (l : OutLine) (v : Bit) : (lineWrite l v s).txd = s.txd := by cases l <;> rfl
@[simp] theorem lineWrite_cf (l : OutLine) (v : Bit) : (lineWrite l v s).cf = s.cf := by cases l <;> rfl
@[simp] theorem lineWrite_cflen (l : OutLine) (v : Bit) : (lineWrite l v s).cflen = s.cflen := by cases l <;> rfl
@[simp] theorem lineWrite_rxd (l : OutLine) (v : Bit) : (lineWrite l v s).rxd = s.rxd := by cases l <;> rfl
@[simp] theorem lineWrite_analog (l : OutLine) (v : Bit) : (lineWrite l v s).analog = s.analog := by cases l <;> rfl
@[simp] theorem lineWrite_axis (l : OutLine) (v : Bit) : (lineWrite l v s).axis = s.axis := by cases l <;> rfl
@[simp] theorem lineWrite_pressed (l : OutLine) (v : Bit) : (lineWrite l v s).pressed = s.pressed := by cases l <;> rfl
@[simp] theorem lineWrite_opr (l : OutLine) (v : Bit) : (lineWrite l v s).opr = s.opr := by cases l <;> rfl
@[simp] theorem lineWrite_selr (l : OutLine) (v : Bit) : (lineWrite l v s).selr = s.selr := by cases l <;> rfl
@[simp] theorem lineWrite_pos (l : OutLine) (v : Bit) : (lineWrite l v s).pos = s.pos := by cases l <;> rfl
@[simp] theorem lineWrite_busy (l : OutLine) (v : Bit) : (lineWrite l v s).busy = s.busy := by cases l <;> rfl
@[simp] theorem lineWrite_done (l : OutLine) (v : Bit) : (lineWrite l v s).done = s.done := by cases l <;> rfl
@[simp] theorem lineWrite_cfgFail (l : OutLine) (v : Bit) : (lineWrite l v s).cfgFail = s.cfgFail := by cases l <;> rfl
@[simp] theorem lineWrite_params (l : OutLine) (v : Bit) : (lineWrite l v s).params = s.params := by cases l <;> rfl
@[simp] theorem lineWrite_peer (l : OutLine) (v : Bit) : (lineWrite l v s).peer = s.peer := by cases l <;> rfl
@[simp] theorem lineWrite_reads (l : OutLine) (v : Bit) : (lineWrite l v s).reads = s.reads := by cases l <;> rfl
@[simp] theorem lineWrite_draws (l : OutLine) (v : Bit) : (lineWrite l v s).draws = s.draws := by cases l <;> rfl
@[simp] theorem lineWrite_trace (l : OutLine) (v : Bit) : (lineWrite l v s).trace = s.trace ++ [.write l v] := by cases l <;> rfl
@[simp] theorem lineWrite_turns (l : OutLine) (v : Bit) : (lineWrite l v s).turns = s.turns := by cases l <;> rfl
@[simp] theorem lineWrite_hostGot (l : OutLine) (v : Bit) : (lineWrite l v s).hostGot = s.hostGot := by cases l <;> rfl

/-! ### lineRead (R52) -/
@[simp] theorem lineRead_att : (lineRead s).att = s.att := rfl
@[simp] theorem lineRead_clk : (lineRead s).clk = s.clk := rfl
@[simp] theorem lineRead_cmd : (lineRead s).cmd = s.cmd := rfl
@[simp] theorem lineRead_txb : (lineRead s).txb = s.txb := rfl
@[simp] theorem lineRead_acc : (lineRead s).acc = s.acc := rfl
@[simp] theorem lineRead_fr : (lineRead s).fr = s.fr := rfl
@[simp] theorem lineRead_rf : (lineRead s).rf = s.rf := rfl
@[simp] theorem lineRead_rflen : (lineRead s).rflen = s.rflen := rfl
@[simp] theorem lineRead_txd : (lineRead s).txd = s.txd := rfl
@[simp] theorem lineRead_cf : (lineRead s).cf = s.cf := rfl
@[simp] theorem lineRead_cflen : (lineRead s).cflen = s.cflen := rfl
@[simp] theorem lineRead_rxd : (lineRead s).rxd = s.rxd := rfl
@[simp] theorem lineRead_analog : (lineRead s).analog = s.analog := rfl
@[simp] theorem lineRead_axis : (lineRead s).axis = s.axis := rfl
@[simp] theorem lineRead_pressed : (lineRead s).pressed = s.pressed := rfl
@[simp] theorem lineRead_opr : (lineRead s).opr = s.opr := rfl
@[simp] theorem lineRead_selr : (lineRead s).selr = s.selr := rfl
@[simp] theorem lineRead_pos : (lineRead s).pos = s.pos := rfl
@[simp] theorem lineRead_busy : (lineRead s).busy = s.busy := rfl
@[simp] theorem lineRead_done : (lineRead s).done = s.done := rfl
@[simp] theorem lineRead_cfgFail : (lineRead s).cfgFail = s.cfgFail := rfl
@[simp] theorem lineRead_params : (lineRead s).params = s.params := rfl
@[simp] theorem lineRead_peer : (lineRead s).peer = s.peer := rfl
@[simp] theorem lineRead_reads : (lineRead s).reads = s.reads + 1 := rfl
@[simp] theorem lineRead_draws : (lineRead s).draws = s.draws + 1 := rfl
@[simp] theorem lineRead_trace : (lineRead s).trace = s.trace ++ [.read (datNow s)] := rfl
@[simp] theorem lineRead_turns : (lineRead s).turns = s.turns := rfl
@[simp] theorem lineRead_hostGot : (lineRead s).hostGot = s.hostGot := rfl

/-! ### settleWait (R143) -/
@[simp] theorem settleWait_att : (settleWait s).att = s.att := rfl
@[simp] theorem settleWait_clk : (settleWait s).clk = s.clk := rfl
@[simp] theorem settleWait_cmd : (settleWait s).cmd = s.cmd := rfl
@[simp] theorem settleWait_txb : (settleWait s).txb = s.txb := rfl
@[simp] theorem settleWait_acc : (settleWait s).acc = s.acc := rfl
@[simp] theorem settleWait_fr : (settleWait s).fr = s.fr := rfl
@[simp] theorem settleWait_rf : (settleWait s).rf = s.rf := rfl
@[simp] theorem settleWait_rflen : (settleWait s).rflen = s.rflen := rfl
@[simp] theorem settleWait_txd : (settleWait s).txd = s.txd := rfl
@[simp] theorem settleWait_cf : (settleWait s).cf = s.cf := rfl
@[simp] theorem settleWait_cflen : (settleWait s).cflen = s.cflen := rfl
@[simp] theorem settleWait_rxd : (settleWait s).rxd = s.rxd := rfl
@[simp] theorem settleWait_analog : (settleWait s).analog = s.analog := rfl
@[simp] theorem settleWait_axis : (settleWait s).axis = s.axis := rfl
@[simp] theorem settleWait_pressed : (settleWait s).pressed = s.pressed := rfl
@[simp] theorem settleWait_opr : (settleWait s).opr = s.opr := rfl
@[simp] theorem settleWait_selr : (settleWait s).selr = s.selr := rfl
@[simp] theorem settleWait_pos : (settleWait s).pos = s.pos := rfl
@[simp] theorem settleWait_busy : (settleWait s).busy = s.busy := rfl
@[simp] theorem settleWait_done : (settleWait s).done = s.done := rfl
@[simp] theorem settleWait_cfgFail : (settleWait s).cfgFail = s.cfgFail := rfl
@[simp] theorem settleWait_params : (settleWait s).params = s.params := rfl
@[simp] theorem settleWait_peer : (settleWait s).peer = s.peer := rfl
@[simp] theorem settleWait_reads : (settleWait s).reads = s.reads := rfl
@[simp] theorem settleWait_draws : (settleWait s).draws = s.draws := rfl
@[simp] theorem settleWait_trace : (settleWait s).trace = s.trace ++ [.waitSettle] := rfl
@[simp] theorem settleWait_turns : (settleWait s).turns = s.turns := rfl
@[simp] theorem settleWait_hostGot : (settleWait s).hostGot = s.hostGot := rfl

/-! ### beginOp (R27, R46) -/
@[simp] theorem beginOp_att (op sel : BitVec 3) : (beginOp op sel s).att = s.att := rfl
@[simp] theorem beginOp_clk (op sel : BitVec 3) : (beginOp op sel s).clk = s.clk := rfl
@[simp] theorem beginOp_cmd (op sel : BitVec 3) : (beginOp op sel s).cmd = s.cmd := rfl
@[simp] theorem beginOp_txb (op sel : BitVec 3) : (beginOp op sel s).txb = s.txb := rfl
@[simp] theorem beginOp_acc (op sel : BitVec 3) : (beginOp op sel s).acc = s.acc := rfl
@[simp] theorem beginOp_fr (op sel : BitVec 3) : (beginOp op sel s).fr = s.fr := rfl
@[simp] theorem beginOp_rf (op sel : BitVec 3) : (beginOp op sel s).rf = s.rf := rfl
@[simp] theorem beginOp_rflen (op sel : BitVec 3) : (beginOp op sel s).rflen = s.rflen := rfl
@[simp] theorem beginOp_txd (op sel : BitVec 3) : (beginOp op sel s).txd = s.txd := rfl
@[simp] theorem beginOp_cf (op sel : BitVec 3) : (beginOp op sel s).cf = s.cf := rfl
@[simp] theorem beginOp_cflen (op sel : BitVec 3) : (beginOp op sel s).cflen = s.cflen := rfl
@[simp] theorem beginOp_rxd (op sel : BitVec 3) : (beginOp op sel s).rxd = s.rxd := rfl
@[simp] theorem beginOp_analog (op sel : BitVec 3) : (beginOp op sel s).analog = s.analog := rfl
@[simp] theorem beginOp_axis (op sel : BitVec 3) : (beginOp op sel s).axis = s.axis := rfl
@[simp] theorem beginOp_pressed (op sel : BitVec 3) : (beginOp op sel s).pressed = s.pressed := rfl
@[simp] theorem beginOp_opr (op sel : BitVec 3) : (beginOp op sel s).opr = op := rfl
@[simp] theorem beginOp_selr (op sel : BitVec 3) : (beginOp op sel s).selr = sel := rfl
@[simp] theorem beginOp_pos (op sel : BitVec 3) : (beginOp op sel s).pos = s.pos := rfl
@[simp] theorem beginOp_busy (op sel : BitVec 3) : (beginOp op sel s).busy = 1#1 := rfl
@[simp] theorem beginOp_done (op sel : BitVec 3) : (beginOp op sel s).done = 0#1 := rfl
@[simp] theorem beginOp_cfgFail (op sel : BitVec 3) : (beginOp op sel s).cfgFail = s.cfgFail := rfl
@[simp] theorem beginOp_params (op sel : BitVec 3) : (beginOp op sel s).params = s.params := rfl
@[simp] theorem beginOp_peer (op sel : BitVec 3) : (beginOp op sel s).peer = s.peer := rfl
@[simp] theorem beginOp_reads (op sel : BitVec 3) : (beginOp op sel s).reads = s.reads := rfl
@[simp] theorem beginOp_draws (op sel : BitVec 3) : (beginOp op sel s).draws = s.draws := rfl
@[simp] theorem beginOp_trace (op sel : BitVec 3) : (beginOp op sel s).trace = s.trace := rfl
@[simp] theorem beginOp_turns (op sel : BitVec 3) : (beginOp op sel s).turns = s.turns := rfl
@[simp] theorem beginOp_hostGot (op sel : BitVec 3) : (beginOp op sel s).hostGot = s.hostGot := rfl

/-! ### finishOp -/
@[simp] theorem finishOp_att : (finishOp s).att = s.att := rfl
@[simp] theorem finishOp_clk : (finishOp s).clk = s.clk := rfl
@[simp] theorem finishOp_cmd : (finishOp s).cmd = s.cmd := rfl
@[simp] theorem finishOp_txb : (finishOp s).txb = s.txb := rfl
@[simp] theorem finishOp_acc : (finishOp s).acc = s.acc := rfl
@[simp] theorem finishOp_fr : (finishOp s).fr = s.fr := rfl
@[simp] theorem finishOp_rf : (finishOp s).rf = s.rf := rfl
@[simp] theorem finishOp_rflen : (finishOp s).rflen = s.rflen := rfl
@[simp] theorem finishOp_txd : (finishOp s).txd = s.txd := rfl
@[simp] theorem finishOp_cf : (finishOp s).cf = s.cf := rfl
@[simp] theorem finishOp_cflen : (finishOp s).cflen = s.cflen := rfl
@[simp] theorem finishOp_rxd : (finishOp s).rxd = s.rxd := rfl
@[simp] theorem finishOp_analog : (finishOp s).analog = s.analog := rfl
@[simp] theorem finishOp_axis : (finishOp s).axis = s.axis := rfl
@[simp] theorem finishOp_pressed : (finishOp s).pressed = s.pressed := rfl
@[simp] theorem finishOp_opr : (finishOp s).opr = s.opr := rfl
@[simp] theorem finishOp_selr : (finishOp s).selr = s.selr := rfl
@[simp] theorem finishOp_pos : (finishOp s).pos = .idle := rfl
@[simp] theorem finishOp_busy : (finishOp s).busy = 0#1 := rfl
@[simp] theorem finishOp_done : (finishOp s).done = 1#1 := rfl
@[simp] theorem finishOp_cfgFail : (finishOp s).cfgFail = s.cfgFail := rfl
@[simp] theorem finishOp_params : (finishOp s).params = s.params := rfl
@[simp] theorem finishOp_peer : (finishOp s).peer = s.peer := rfl
@[simp] theorem finishOp_reads : (finishOp s).reads = s.reads := rfl
@[simp] theorem finishOp_draws : (finishOp s).draws = s.draws := rfl
@[simp] theorem finishOp_trace : (finishOp s).trace = s.trace := rfl
@[simp] theorem finishOp_turns : (finishOp s).turns = s.turns := rfl
@[simp] theorem finishOp_hostGot : (finishOp s).hostGot = s.hostGot := rfl

/-! ### moveTo (R7) -/
@[simp] theorem moveTo_att (q : Pos) : (moveTo q s).att = s.att := rfl
@[simp] theorem moveTo_clk (q : Pos) : (moveTo q s).clk = s.clk := rfl
@[simp] theorem moveTo_cmd (q : Pos) : (moveTo q s).cmd = s.cmd := rfl
@[simp] theorem moveTo_txb (q : Pos) : (moveTo q s).txb = s.txb := rfl
@[simp] theorem moveTo_acc (q : Pos) : (moveTo q s).acc = s.acc := rfl
@[simp] theorem moveTo_fr (q : Pos) : (moveTo q s).fr = s.fr := rfl
@[simp] theorem moveTo_rf (q : Pos) : (moveTo q s).rf = s.rf := rfl
@[simp] theorem moveTo_rflen (q : Pos) : (moveTo q s).rflen = s.rflen := rfl
@[simp] theorem moveTo_txd (q : Pos) : (moveTo q s).txd = s.txd := rfl
@[simp] theorem moveTo_cf (q : Pos) : (moveTo q s).cf = s.cf := rfl
@[simp] theorem moveTo_cflen (q : Pos) : (moveTo q s).cflen = s.cflen := rfl
@[simp] theorem moveTo_rxd (q : Pos) : (moveTo q s).rxd = s.rxd := rfl
@[simp] theorem moveTo_analog (q : Pos) : (moveTo q s).analog = s.analog := rfl
@[simp] theorem moveTo_axis (q : Pos) : (moveTo q s).axis = s.axis := rfl
@[simp] theorem moveTo_pressed (q : Pos) : (moveTo q s).pressed = s.pressed := rfl
@[simp] theorem moveTo_opr (q : Pos) : (moveTo q s).opr = s.opr := rfl
@[simp] theorem moveTo_selr (q : Pos) : (moveTo q s).selr = s.selr := rfl
@[simp] theorem moveTo_pos (q : Pos) : (moveTo q s).pos = q := rfl
@[simp] theorem moveTo_busy (q : Pos) : (moveTo q s).busy = s.busy := rfl
@[simp] theorem moveTo_done (q : Pos) : (moveTo q s).done = s.done := rfl
@[simp] theorem moveTo_cfgFail (q : Pos) : (moveTo q s).cfgFail = s.cfgFail := rfl
@[simp] theorem moveTo_params (q : Pos) : (moveTo q s).params = s.params := rfl
@[simp] theorem moveTo_peer (q : Pos) : (moveTo q s).peer = s.peer := rfl
@[simp] theorem moveTo_reads (q : Pos) : (moveTo q s).reads = s.reads := rfl
@[simp] theorem moveTo_draws (q : Pos) : (moveTo q s).draws = s.draws := rfl
@[simp] theorem moveTo_trace (q : Pos) : (moveTo q s).trace = s.trace := rfl
@[simp] theorem moveTo_turns (q : Pos) : (moveTo q s).turns = s.turns := rfl
@[simp] theorem moveTo_hostGot (q : Pos) : (moveTo q s).hostGot = s.hostGot := rfl
@[simp] theorem moveTo_moveTo (q q' : Pos) : moveTo q (moveTo q' s) = moveTo q s := rfl

/-! ### openSession (R24) -/
@[simp] theorem openSession_att (o : Fin 4) (frame : List Byte) : (openSession o frame s).att = s.att := rfl
@[simp] theorem openSession_clk (o : Fin 4) (frame : List Byte) : (openSession o frame s).clk = s.clk := rfl
@[simp] theorem openSession_cmd (o : Fin 4) (frame : List Byte) : (openSession o frame s).cmd = s.cmd := rfl
@[simp] theorem openSession_txb (o : Fin 4) (frame : List Byte) : (openSession o frame s).txb = s.txb := rfl
@[simp] theorem openSession_acc (o : Fin 4) (frame : List Byte) : (openSession o frame s).acc = s.acc := rfl
@[simp] theorem openSession_fr (o : Fin 4) (frame : List Byte) : (openSession o frame s).fr = frame := rfl
@[simp] theorem openSession_rf (o : Fin 4) (frame : List Byte) : (openSession o frame s).rf = s.rf := rfl
@[simp] theorem openSession_rflen (o : Fin 4) (frame : List Byte) : (openSession o frame s).rflen = s.rflen := rfl
@[simp] theorem openSession_txd (o : Fin 4) (frame : List Byte) : (openSession o frame s).txd = s.txd := rfl
@[simp] theorem openSession_cf (o : Fin 4) (frame : List Byte) : (openSession o frame s).cf = s.cf := rfl
@[simp] theorem openSession_cflen (o : Fin 4) (frame : List Byte) : (openSession o frame s).cflen = s.cflen := rfl
@[simp] theorem openSession_rxd (o : Fin 4) (frame : List Byte) : (openSession o frame s).rxd = s.rxd := rfl
@[simp] theorem openSession_analog (o : Fin 4) (frame : List Byte) : (openSession o frame s).analog = s.analog := rfl
@[simp] theorem openSession_axis (o : Fin 4) (frame : List Byte) : (openSession o frame s).axis = s.axis := rfl
@[simp] theorem openSession_pressed (o : Fin 4) (frame : List Byte) : (openSession o frame s).pressed = s.pressed := rfl
@[simp] theorem openSession_opr (o : Fin 4) (frame : List Byte) : (openSession o frame s).opr = s.opr := rfl
@[simp] theorem openSession_selr (o : Fin 4) (frame : List Byte) : (openSession o frame s).selr = s.selr := rfl
@[simp] theorem openSession_pos (o : Fin 4) (frame : List Byte) : (openSession o frame s).pos = .ses o 0 := rfl
@[simp] theorem openSession_busy (o : Fin 4) (frame : List Byte) : (openSession o frame s).busy = s.busy := rfl
@[simp] theorem openSession_done (o : Fin 4) (frame : List Byte) : (openSession o frame s).done = s.done := rfl
@[simp] theorem openSession_cfgFail (o : Fin 4) (frame : List Byte) : (openSession o frame s).cfgFail = s.cfgFail := rfl
@[simp] theorem openSession_params (o : Fin 4) (frame : List Byte) : (openSession o frame s).params = s.params := rfl
@[simp] theorem openSession_peer (o : Fin 4) (frame : List Byte) : (openSession o frame s).peer = s.peer := rfl
@[simp] theorem openSession_reads (o : Fin 4) (frame : List Byte) : (openSession o frame s).reads = s.reads := rfl
@[simp] theorem openSession_draws (o : Fin 4) (frame : List Byte) : (openSession o frame s).draws = s.draws := rfl
@[simp] theorem openSession_trace (o : Fin 4) (frame : List Byte) : (openSession o frame s).trace = s.trace := rfl
@[simp] theorem openSession_turns (o : Fin 4) (frame : List Byte) : (openSession o frame s).turns = s.turns := rfl
@[simp] theorem openSession_hostGot (o : Fin 4) (frame : List Byte) : (openSession o frame s).hostGot = s.hostGot := rfl

/-! ### raiseIf (R186): only `CFG_FAIL` can change -/
@[simp] theorem raiseIf_att (g : Option Fault) : (raiseIf g s).att = s.att := by rcases g with _ | _ | _ <;> rfl
@[simp] theorem raiseIf_clk (g : Option Fault) : (raiseIf g s).clk = s.clk := by rcases g with _ | _ | _ <;> rfl
@[simp] theorem raiseIf_cmd (g : Option Fault) : (raiseIf g s).cmd = s.cmd := by rcases g with _ | _ | _ <;> rfl
@[simp] theorem raiseIf_txb (g : Option Fault) : (raiseIf g s).txb = s.txb := by rcases g with _ | _ | _ <;> rfl
@[simp] theorem raiseIf_acc (g : Option Fault) : (raiseIf g s).acc = s.acc := by rcases g with _ | _ | _ <;> rfl
@[simp] theorem raiseIf_fr (g : Option Fault) : (raiseIf g s).fr = s.fr := by rcases g with _ | _ | _ <;> rfl
@[simp] theorem raiseIf_rf (g : Option Fault) : (raiseIf g s).rf = s.rf := by rcases g with _ | _ | _ <;> rfl
@[simp] theorem raiseIf_rflen (g : Option Fault) : (raiseIf g s).rflen = s.rflen := by rcases g with _ | _ | _ <;> rfl
@[simp] theorem raiseIf_txd (g : Option Fault) : (raiseIf g s).txd = s.txd := by rcases g with _ | _ | _ <;> rfl
@[simp] theorem raiseIf_cf (g : Option Fault) : (raiseIf g s).cf = s.cf := by rcases g with _ | _ | _ <;> rfl
@[simp] theorem raiseIf_cflen (g : Option Fault) : (raiseIf g s).cflen = s.cflen := by rcases g with _ | _ | _ <;> rfl
@[simp] theorem raiseIf_rxd (g : Option Fault) : (raiseIf g s).rxd = s.rxd := by rcases g with _ | _ | _ <;> rfl
@[simp] theorem raiseIf_analog (g : Option Fault) : (raiseIf g s).analog = s.analog := by rcases g with _ | _ | _ <;> rfl
@[simp] theorem raiseIf_axis (g : Option Fault) : (raiseIf g s).axis = s.axis := by rcases g with _ | _ | _ <;> rfl
@[simp] theorem raiseIf_pressed (g : Option Fault) : (raiseIf g s).pressed = s.pressed := by rcases g with _ | _ | _ <;> rfl
@[simp] theorem raiseIf_opr (g : Option Fault) : (raiseIf g s).opr = s.opr := by rcases g with _ | _ | _ <;> rfl
@[simp] theorem raiseIf_selr (g : Option Fault) : (raiseIf g s).selr = s.selr := by rcases g with _ | _ | _ <;> rfl
@[simp] theorem raiseIf_pos (g : Option Fault) : (raiseIf g s).pos = s.pos := by rcases g with _ | _ | _ <;> rfl
@[simp] theorem raiseIf_busy (g : Option Fault) : (raiseIf g s).busy = s.busy := by rcases g with _ | _ | _ <;> rfl
@[simp] theorem raiseIf_done (g : Option Fault) : (raiseIf g s).done = s.done := by rcases g with _ | _ | _ <;> rfl
@[simp] theorem raiseIf_params (g : Option Fault) : (raiseIf g s).params = s.params := by rcases g with _ | _ | _ <;> rfl
@[simp] theorem raiseIf_peer (g : Option Fault) : (raiseIf g s).peer = s.peer := by rcases g with _ | _ | _ <;> rfl
@[simp] theorem raiseIf_reads (g : Option Fault) : (raiseIf g s).reads = s.reads := by rcases g with _ | _ | _ <;> rfl
@[simp] theorem raiseIf_draws (g : Option Fault) : (raiseIf g s).draws = s.draws := by rcases g with _ | _ | _ <;> rfl
@[simp] theorem raiseIf_trace (g : Option Fault) : (raiseIf g s).trace = s.trace := by rcases g with _ | _ | _ <;> rfl
@[simp] theorem raiseIf_turns (g : Option Fault) : (raiseIf g s).turns = s.turns := by rcases g with _ | _ | _ <;> rfl
@[simp] theorem raiseIf_hostGot (g : Option Fault) : (raiseIf g s).hostGot = s.hostGot := by rcases g with _ | _ | _ <;> rfl
@[simp] theorem raiseIf_validation_cfgFail (b : Byte) :
    (raiseIf (validationSignal b) s).cfgFail = if recognizedMode b then s.cfgFail else 1#1 := by
  unfold validationSignal; split <;> rfl
@[simp] theorem raiseIf_decoder (n : Nat) : raiseIf (decoderSignal n) s = s := by
  unfold decoderSignal; split <;> rfl

/-! ### whenIdle (R45) -/
theorem whenIdle_busy (t : State) (h : s.busy = 1#1) : whenIdle s t = s := if_pos h
theorem whenIdle_idle (t : State) (h : s.busy = 0#1) : whenIdle s t = t := if_neg (by simp [h])

end Sys2Proof.Machine
end

