-- ==== Sys2Proof/Laws/Exchange.lean ====
section
/-!
SUPPORT. Everything a byte exchange can do (41_bit_exchanger.md R111 to R113, R118): after its 33
events `ACC` holds some byte `r`, whose bits are the sampled levels in the trace, and only the lines,
`ACC` and the record of events have changed.
-/
namespace Sys2Proof.Machine

/-- The first `k` events of a byte exchange. -/
def exchangeUpTo : Nat → State → State
  | 0, s => s
  | k + 1, s => bxEvent k (exchangeUpTo k s)

/-- What bit cell `i` leaves, when the peer shows `d`. -/
def afterCell (i : Nat) (d : Bit) (s : State) : State :=
  { s with
    acc := orSample s.acc d i
    clk := 1#1
    cmd := bitOf s.txb i
    reads := s.reads + 1
    draws := s.draws + 1
    trace := s.trace ++ [.write .cmd (bitOf s.txb i), .write .clk 0#1, .read d, .write .clk 1#1] }

/-- What the peer sees when it is sampled in bit cell `i`: the bit is out and the clock is low. -/
def beforeSample (i : Nat) (s : State) : State :=
  { s with
    cmd := bitOf s.txb i
    clk := 0#1
    trace := s.trace ++ [.write .cmd (bitOf s.txb i), .write .clk 0#1] }

/-- The four events of bit cell `i` (R71). -/
def cellStep (i : Nat) (s : State) : State := afterCell i (datNow (beforeSample i s)) s

theorem cell_run (i : Nat) (s : State) :
    exchangeUpTo (4 * i + 5) s = cellStep i (exchangeUpTo (4 * i + 1) s) := by
  rw [show exchangeUpTo (4 * i + 5) s = bxEvent (4 * i + 4) (bxEvent (4 * i + 3) (bxEvent (4 * i + 2)
    (bxEvent (4 * i + 1) (exchangeUpTo (4 * i + 1) s)))) from rfl]
  generalize exchangeUpTo (4 * i + 1) s = u
  have m0 : (4 * i) % 4 = 0 := by omega
  have m1 : (4 * i + 1) % 4 = 1 := by omega
  have m2 : (4 * i + 2) % 4 = 2 := by omega
  have m3 : (4 * i + 3) % 4 = 3 := by omega
  have q0 : (4 * i) / 4 = i := by omega
  have q2 : (4 * i + 2) / 4 = i := by omega
  simp [bxEvent, bxAct, m0, m1, m2, m3, q0, q2, lineWrite, lineRead, cellStep, afterCell,
    beforeSample]

/-- The byte of eight samples, sample `i` at bit `i` (R82 (b), R118). -/
def sampledByte (d0 d1 d2 d3 d4 d5 d6 d7 : Bit) : Byte :=
  orSample (orSample (orSample (orSample (orSample (orSample (orSample (orSample 0#8
    d0 0) d1 1) d2 2) d3 3) d4 4) d5 5) d6 6) d7 7

theorem bitOf_sampledByte (d0 d1 d2 d3 d4 d5 d6 d7 : Bit) :
    let r := sampledByte d0 d1 d2 d3 d4 d5 d6 d7
    bitOf r 0 = d0 ∧ bitOf r 1 = d1 ∧ bitOf r 2 = d2 ∧ bitOf r 3 = d3 ∧
      bitOf r 4 = d4 ∧ bitOf r 5 = d5 ∧ bitOf r 6 = d6 ∧ bitOf r 7 = d7 := by
  have key : ∀ d : Bit, BitVec.ofBool d[0] = d := by decide
  simp [sampledByte, orSample, bitOf, key]

/-- After an exchange of `TXB`, some byte `r` has been received. -/
def afterExchange (r : Byte) (s : State) : State :=
  { s with
    acc := r
    clk := 1#1
    cmd := bitOf s.txb 7
    reads := s.reads + 8
    draws := s.draws + 8
    trace := s.trace ++ byteEvents s.txb r }

/-- The byte an exchange of `TXB` from here receives. -/
def received (s : State) : Byte := (exchangeUpTo 33 s).acc

/-- The eight bit cells of an exchange, after its opening write. -/
theorem exchange_cells (s : State) :
    exchangeUpTo 33 s = cellStep 7 (cellStep 6 (cellStep 5 (cellStep 4 (cellStep 3 (cellStep 2
      (cellStep 1 (cellStep 0 (bxEvent 0 s)))))))) := by
  rw [show exchangeUpTo 33 s = _ from cell_run 7 s, show exchangeUpTo 29 s = _ from cell_run 6 s,
    show exchangeUpTo 25 s = _ from cell_run 5 s, show exchangeUpTo 21 s = _ from cell_run 4 s,
    show exchangeUpTo 17 s = _ from cell_run 3 s, show exchangeUpTo 13 s = _ from cell_run 2 s,
    show exchangeUpTo 9 s = _ from cell_run 1 s, show exchangeUpTo 5 s = _ from cell_run 0 s]
  rfl

/-- An exchange leaves exactly what `afterExchange` says. -/
theorem exchange_run (s : State) : exchangeUpTo 33 s = afterExchange (received s) s := by
  have key : ∀ d0 d1 d2 d3 d4 d5 d6 d7,
      afterCell 7 d7 (afterCell 6 d6 (afterCell 5 d5 (afterCell 4 d4 (afterCell 3 d3 (afterCell 2 d2
        (afterCell 1 d1 (afterCell 0 d0 (bxEvent 0 s)))))))) =
        afterExchange (sampledByte d0 d1 d2 d3 d4 d5 d6 d7) s := by
    intro d0 d1 d2 d3 d4 d5 d6 d7
    have hb := bitOf_sampledByte d0 d1 d2 d3 d4 d5 d6 d7
    simp [afterCell, afterExchange, bxEvent, bxAct, lineWrite, byteEvents, cellEvents,
      List.range_succ, hb]
    rfl
  have h := exchange_cells s
  simp only [cellStep] at h
  rw [key] at h
  rw [received, h]
  rfl

/-- A byte is the byte of its bits (R118). -/
theorem sampledByte_bits (b : Byte) :
    sampledByte (bitOf b 0) (bitOf b 1) (bitOf b 2) (bitOf b 3) (bitOf b 4) (bitOf b 5) (bitOf b 6)
      (bitOf b 7) = b := by
  revert b
  decide

/-- Through a loopback peer the byte sent comes back (R118). -/
theorem received_loopback (s : State) (h : s.peer = .loopback) : received s = s.txb := by
  have key : ∀ i u, u.peer = .loopback → cellStep i u = afterCell i (bitOf u.txb i) u := by
    intro i u hu
    simp [cellStep, datNow, beforeSample, hu]
  rw [received, exchange_cells]
  rw [key 0, key 1, key 2, key 3, key 4, key 5, key 6, key 7]
  · exact sampledByte_bits s.txb
  all_goals exact h

/-- A scripted peer whose next eight answers are the bits of `b` gives `b` (R114). -/
theorem received_script (s : State) (bytes : List Byte) (m : Nat) (b : Byte)
    (h : s.peer = .script bytes) (hr : s.reads = 8 * m) (hb : bytes[m]? = some b) :
    received s = b := by
  have level : ∀ i, i < 8 → scriptLevel bytes (8 * m + i) = bitOf b i := by
    intro i hi
    unfold scriptLevel
    rw [show (8 * m + i) / 8 = m by omega, show (8 * m + i) % 8 = i by omega, hb]
  have key : ∀ i u, i < 8 → u.peer = .script bytes → u.reads = 8 * m + i →
      cellStep i u = afterCell i (bitOf b i) u := by
    intro i u hi hu hr
    simp [cellStep, datNow, beforeSample, hu, hr, level i hi]
  have r : ∀ i d u, (afterCell i d u).reads = u.reads + 1 := fun _ _ _ => rfl
  have r0 : (bxEvent 0 s).reads = 8 * m := hr
  rw [received, exchange_cells]
  rw [key 0, key 1, key 2, key 3, key 4, key 5, key 6, key 7]
  · exact sampledByte_bits b
  all_goals first
    | exact h
    | exact r0
    | simp only [r, r0]
    | omega

/-- An exchange event changes only `CMD`, `CLK`, `ACC` and the record of events (R110, R113). -/
theorem bxEvent_frame (k : Nat) (s : State) :
    ∃ cmd clk acc reads draws e, bxEvent k s =
      { s with
        cmd := cmd, clk := clk, acc := acc, reads := reads, draws := draws
        trace := s.trace ++ [e] } := by
  unfold bxEvent
  by_cases hk : k = 0
  · subst hk
    exact ⟨_, _, _, _, _, _, rfl⟩
  · have hm : (k - 1) % 4 = 0 ∨ (k - 1) % 4 = 1 ∨ (k - 1) % 4 = 2 ∨ (k - 1) % 4 = 3 := by omega
    unfold bxAct
    rcases hm with hm | hm | hm | hm <;> simp only [hk, hm, if_false] <;>
      exact ⟨_, _, _, _, _, _, rfl⟩

@[simp] theorem bxEvent_att (k : Nat) (s : State) : (bxEvent k s).att = s.att := by
  obtain ⟨_, _, _, _, _, _, h⟩ := bxEvent_frame k s; rw [h]
@[simp] theorem bxEvent_txb (k : Nat) (s : State) : (bxEvent k s).txb = s.txb := by
  obtain ⟨_, _, _, _, _, _, h⟩ := bxEvent_frame k s; rw [h]
@[simp] theorem bxEvent_fr (k : Nat) (s : State) : (bxEvent k s).fr = s.fr := by
  obtain ⟨_, _, _, _, _, _, h⟩ := bxEvent_frame k s; rw [h]
@[simp] theorem bxEvent_rf (k : Nat) (s : State) : (bxEvent k s).rf = s.rf := by
  obtain ⟨_, _, _, _, _, _, h⟩ := bxEvent_frame k s; rw [h]
@[simp] theorem bxEvent_rflen (k : Nat) (s : State) : (bxEvent k s).rflen = s.rflen := by
  obtain ⟨_, _, _, _, _, _, h⟩ := bxEvent_frame k s; rw [h]
@[simp] theorem bxEvent_txd (k : Nat) (s : State) : (bxEvent k s).txd = s.txd := by
  obtain ⟨_, _, _, _, _, _, h⟩ := bxEvent_frame k s; rw [h]
@[simp] theorem bxEvent_cf (k : Nat) (s : State) : (bxEvent k s).cf = s.cf := by
  obtain ⟨_, _, _, _, _, _, h⟩ := bxEvent_frame k s; rw [h]
@[simp] theorem bxEvent_cflen (k : Nat) (s : State) : (bxEvent k s).cflen = s.cflen := by
  obtain ⟨_, _, _, _, _, _, h⟩ := bxEvent_frame k s; rw [h]
@[simp] theorem bxEvent_rxd (k : Nat) (s : State) : (bxEvent k s).rxd = s.rxd := by
  obtain ⟨_, _, _, _, _, _, h⟩ := bxEvent_frame k s; rw [h]
@[simp] theorem bxEvent_analog (k : Nat) (s : State) : (bxEvent k s).analog = s.analog := by
  obtain ⟨_, _, _, _, _, _, h⟩ := bxEvent_frame k s; rw [h]
@[simp] theorem bxEvent_axis (k : Nat) (s : State) : (bxEvent k s).axis = s.axis := by
  obtain ⟨_, _, _, _, _, _, h⟩ := bxEvent_frame k s; rw [h]
@[simp] theorem bxEvent_pressed (k : Nat) (s : State) : (bxEvent k s).pressed = s.pressed := by
  obtain ⟨_, _, _, _, _, _, h⟩ := bxEvent_frame k s; rw [h]
@[simp] theorem bxEvent_opr (k : Nat) (s : State) : (bxEvent k s).opr = s.opr := by
  obtain ⟨_, _, _, _, _, _, h⟩ := bxEvent_frame k s; rw [h]
@[simp] theorem bxEvent_selr (k : Nat) (s : State) : (bxEvent k s).selr = s.selr := by
  obtain ⟨_, _, _, _, _, _, h⟩ := bxEvent_frame k s; rw [h]
@[simp] theorem bxEvent_pos (k : Nat) (s : State) : (bxEvent k s).pos = s.pos := by
  obtain ⟨_, _, _, _, _, _, h⟩ := bxEvent_frame k s; rw [h]
@[simp] theorem bxEvent_busy (k : Nat) (s : State) : (bxEvent k s).busy = s.busy := by
  obtain ⟨_, _, _, _, _, _, h⟩ := bxEvent_frame k s; rw [h]
@[simp] theorem bxEvent_done (k : Nat) (s : State) : (bxEvent k s).done = s.done := by
  obtain ⟨_, _, _, _, _, _, h⟩ := bxEvent_frame k s; rw [h]
@[simp] theorem bxEvent_cfgFail (k : Nat) (s : State) : (bxEvent k s).cfgFail = s.cfgFail := by
  obtain ⟨_, _, _, _, _, _, h⟩ := bxEvent_frame k s; rw [h]
@[simp] theorem bxEvent_params (k : Nat) (s : State) : (bxEvent k s).params = s.params := by
  obtain ⟨_, _, _, _, _, _, h⟩ := bxEvent_frame k s; rw [h]
@[simp] theorem bxEvent_peer (k : Nat) (s : State) : (bxEvent k s).peer = s.peer := by
  obtain ⟨_, _, _, _, _, _, h⟩ := bxEvent_frame k s; rw [h]
@[simp] theorem bxEvent_turns (k : Nat) (s : State) : (bxEvent k s).turns = s.turns := by
  obtain ⟨_, _, _, _, _, _, h⟩ := bxEvent_frame k s; rw [h]
@[simp] theorem bxEvent_hostGot (k : Nat) (s : State) : (bxEvent k s).hostGot = s.hostGot := by
  obtain ⟨_, _, _, _, _, _, h⟩ := bxEvent_frame k s; rw [h]

/-- `CLK` through a byte exchange: what it is before event `k + 1` (R71). -/
theorem bxEvent_clk (k : Nat) (s : State) (h : s.clk = clkBefore k) :
    (bxEvent k s).clk = clkBefore (k + 1) := by
  by_cases hk : k = 0
  · subst hk
    exact h
  · obtain ⟨i, rfl⟩ : ∃ i, k = i + 1 := ⟨k - 1, by omega⟩
    have hm := Nat.mod_lt i (show 0 < 4 by omega)
    unfold bxEvent bxAct
    simp only [hk, if_false]
    split <;> rename_i heq
    · simp only [Nat.add_sub_cancel] at heq h ⊢
      split at heq
      · cases heq
        simp_all [clkBefore]
        omega
      · cases heq
        simp_all [clkBefore]
        omega
      · cases heq
      · cases heq
        simp_all [clkBefore]
        omega
    · simp only [Nat.add_sub_cancel] at heq h ⊢
      split at heq
      · cases heq
      · cases heq
      · cases heq
        simp_all [clkBefore]
        omega
      · cases heq

end Sys2Proof.Machine
end

