-- ==== Sys2Proof/Laws/Operands.lean ====
section
/-!
SUPPORT. Everything the operand forms can do: what `putBytes` leaves at every index (R85, R133), and
the lengths of the catalogue's frames (R107).
-/
namespace Sys2Proof.Machine

/-- `putBytes` at one index. -/
theorem putBytes_get (v : Vector Byte 16) (r : List Byte) (j k : Nat) (hk : k < 16) :
    (putBytes v j r)[k] = if j ≤ k then r.getD (k - j) v[k] else v[k] := by
  induction r generalizing v j with
  | nil => simp [putBytes]
  | cons b r ih =>
    rw [putBytes, ih]
    by_cases h1 : j = k
    · subst h1; simp
    · by_cases h2 : j ≤ k
      · have h3 : j + 1 ≤ k := by omega
        have e : k - j = (k - (j + 1)) + 1 := by omega
        simp [h2, h3, h1, e]
      · have h3 : ¬ j + 1 ≤ k := by omega
        simp [h2, h3, h1]

/-- From index 0 on, `putBytes` is `filled`. -/
theorem putBytes_filled (v : Vector Byte 16) (r : List Byte) : putBytes v 0 r = filled v r := by
  ext k hk
  rw [putBytes_get]
  simp [filled]

/-- Every entry of an admissible catalogue has `LMIN` to `LMAX` bytes (R107 (b)). -/
theorem catalogEntry_length (c : Config.Catalogue) (e : Fin 6) :
    8 ≤ (catalogEntry c e).length ∧ (catalogEntry c e).length ≤ 16 := by
  have fl : ∀ f : Config.Frame, 8 ≤ (frameBytes f).length ∧ (frameBytes f).length ≤ 16 := by
    intro f
    have := f.extra.isLt
    constructor <;> simp only [frameBytes, Config.lmin, List.length_take, Vector.length_toList] <;> omega
  match e with
  | 0 | 1 | 2 | 4 | 5 => exact fl _
  | 3 => simp [catalogEntry]

end Sys2Proof.Machine
end

