-- ==== Sys2Proof/Laws/PollDecode.lean ====
section
/-!
SUPPORT. Everything the decoding operations can do (44_poll_decode.md R157, R166): the mask as the two
bytes joined, and `DECODE`'s micro-step.
-/
namespace Sys2Proof.Machine

/-- The mask's high octet is byte 4, its low octet byte 3 (R55). -/
theorem maskOf_eq (r : Vector Byte 16) : maskOf r = (r[4] ++ r[3] : BitVec 16) := by
  unfold maskOf
  ext i h
  rw [BitVec.getElem_append]
  by_cases hi : i < 8
  · simp [hi, BitVec.getLsbD_eq_getElem]
  · simp [hi]
    rw [BitVec.getLsbD_of_ge _ i (by omega)]
    simp [BitVec.getLsbD_eq_getElem, (show i - 8 < 8 by omega)]

theorem storeResult_eq (s : State) :
    storeResult s = { s with
      analog := (decodeFrame s.rflen.toNat s.rf).analog
      axis := (decodeFrame s.rflen.toNat s.rf).axis
      pressed := (decodeFrame s.rflen.toNat s.rf).pressed } := by
  unfold storeResult decoderSignal
  split <;> rfl

theorem decodeNow_legal (sel : BitVec 3) (s : State) (h : s.rflen.toNat ≤ 16) :
    decodeNow sel s = { s with
      opr := 5#3, selr := sel, busy := 0#1, done := 1#1, pos := .idle
      analog := (decodeFrame s.rflen.toNat s.rf).analog
      axis := (decodeFrame s.rflen.toNat s.rf).axis
      pressed := (decodeFrame s.rflen.toNat s.rf).pressed } := by
  unfold decodeNow
  rw [if_pos (by simpa [decodeLegal, Config.lmax] using h), storeResult_eq]
  rfl

end Sys2Proof.Machine
end

