-- ==== Sys2Proof/Laws/FrameWords.lean ====
section
/-!
SUPPORT. Everything the words of a frame can do on an idle block (30_encoding.md R85; log 1): a Command
Frame put into `CF` and started, a field of a response put into `RF` and decoded.
-/
namespace Sys2Proof.Machine

/-- The first nine bytes of a buffer that has been filled with nine. -/
theorem filled_take (v : Vector Byte 16) (bs : Vector Byte 9) :
    (filled v bs.toList).toList.take 9 = bs.toList := by
  apply List.ext_getElem
  · simp
  · intro n h1 h2
    have h9 : n < 9 := by simpa using h2
    simp [filled, h9]

/-- A Command Frame of nine bytes is latched and its session begins (R85, R131). -/
theorem presentFrame_idle (bs : Vector Byte 9) (s : State) (hb : s.busy = 0#1) :
    presentFrame bs s = { s with
      cf := filled s.cf bs.toList, cflen := 9#5, fr := bs.toList, opr := 1#3, selr := 0#3
      busy := 1#1, done := 0#1, pos := .ses 0 0 } := by
  unfold presentFrame startSession
  rw [whenIdle_idle s _ hb, if_pos (by simp [sessionLegal, Config.lmin, Config.lmax])]
  simp [openSession, hostFrame, beginOp, moveTo, putBytes_filled, filled_take]

/-- A field of a full frame, put into `RF` and decoded (R74, R85). -/
theorem presentField_idle (j : Nat) (bs : List Byte) (s : State) (hb : s.busy = 0#1) :
    presentField j bs s = { s with
      rf := putBytes s.rf j bs, rflen := 9#5
      opr := 5#3, selr := 0#3, busy := 0#1, done := 1#1, pos := .idle
      analog := (decodeFrame 9 (putBytes s.rf j bs)).analog
      axis := (decodeFrame 9 (putBytes s.rf j bs)).axis
      pressed := (decodeFrame 9 (putBytes s.rf j bs)).pressed } := by
  unfold presentField
  rw [whenIdle_idle s _ hb, decodeNow_legal _ _ (show (9#5).toNat ≤ 16 by decide)]
  rfl

end Sys2Proof.Machine
end

