-- ==== Sys2Proof/Laws/PerInstr.lean ====
section
/-!
SUPPORT. Laws that hold of every instruction as syntax, one lemma per constructor.
-/
namespace Sys2Proof.Laws.EncodeWidth

/-- An instruction's word has the number of bytes the table gives its format. -/
def Statement (i : Instr) : Prop := (encode i).length = i.format.width

theorem xchg (sel : BitVec 3) : Statement (.xchg sel) := rfl
theorem session (sel : BitVec 3) : Statement (.session sel) := rfl
theorem init (sel : BitVec 3) : Statement (.init sel) := rfl
theorem poll (sel : BitVec 3) : Statement (.poll sel) := rfl
theorem decode (sel : BitVec 3) : Statement (.decode sel) := rfl
theorem csessionEnterConfig : Statement .csessionEnterConfig := rfl
theorem csessionSetMode : Statement .csessionSetMode := rfl
theorem csessionExitConfig : Statement .csessionExitConfig := rfl
theorem csessionReadData : Statement .csessionReadData := rfl
theorem csessionMotorEnable : Statement .csessionMotorEnable := rfl
theorem csessionGetStatus : Statement .csessionGetStatus := rfl
theorem reservedOp6 (sel : BitVec 3) : Statement (.reservedOp6 sel) := rfl
theorem reservedOp7 (sel : BitVec 3) : Statement (.reservedOp7 sel) := rfl
theorem reservedBit6 (low : BitVec 6) : Statement (.reservedBit6 low) := rfl
theorem reservedSel6 : Statement .reservedSel6 := rfl
theorem reservedSel7 : Statement .reservedSel7 := rfl
theorem nopStart0 (low : BitVec 7) : Statement (.nopStart0 low) := rfl
theorem frameEnterConfig : Statement .frameEnterConfig := rfl
theorem frameSetMode : Statement .frameSetMode := rfl
theorem frameExitConfig : Statement .frameExitConfig := rfl
theorem frameReadData : Statement .frameReadData := rfl
theorem frameMotorEnable : Statement .frameMotorEnable := rfl
theorem frameGetStatus : Statement .frameGetStatus := rfl
theorem modeDigital : Statement .modeDigital := rfl
theorem modeAnalog : Statement .modeAnalog := rfl
theorem buttonSelect (mask : BitVec 16) : Statement (.buttonSelect mask) := rfl
theorem buttonL3 (mask : BitVec 16) : Statement (.buttonL3 mask) := rfl
theorem buttonR3 (mask : BitVec 16) : Statement (.buttonR3 mask) := rfl
theorem buttonStart (mask : BitVec 16) : Statement (.buttonStart mask) := rfl
theorem buttonUp (mask : BitVec 16) : Statement (.buttonUp mask) := rfl
theorem buttonRight (mask : BitVec 16) : Statement (.buttonRight mask) := rfl
theorem buttonDown (mask : BitVec 16) : Statement (.buttonDown mask) := rfl
theorem buttonLeft (mask : BitVec 16) : Statement (.buttonLeft mask) := rfl
theorem buttonL2 (mask : BitVec 16) : Statement (.buttonL2 mask) := rfl
theorem buttonR2 (mask : BitVec 16) : Statement (.buttonR2 mask) := rfl
theorem buttonL1 (mask : BitVec 16) : Statement (.buttonL1 mask) := rfl
theorem buttonR1 (mask : BitVec 16) : Statement (.buttonR1 mask) := rfl
theorem buttonTriangle (mask : BitVec 16) : Statement (.buttonTriangle mask) := rfl
theorem buttonCircle (mask : BitVec 16) : Statement (.buttonCircle mask) := rfl
theorem buttonCross (mask : BitVec 16) : Statement (.buttonCross mask) := rfl
theorem buttonSquare (mask : BitVec 16) : Statement (.buttonSquare mask) := rfl
theorem axisRightX (v : Byte) : Statement (.axisRightX v) := rfl
theorem axisRightY (v : Byte) : Statement (.axisRightY v) := rfl
theorem axisLeftX (v : Byte) : Statement (.axisLeftX v) := rfl
theorem axisLeftY (v : Byte) : Statement (.axisLeftY v) := rfl

end Sys2Proof.Laws.EncodeWidth
end

