-- ==== Sys2Proof/Laws/Session.lean ====
section
/-!
SUPPORT. Everything a session can do (42_command_session.md R126, R133): from `SES(o, 0)`, its
`33*n + 2` micro-steps receive some `n` bytes and end in what the operation does at the end of a
session, applied to the state R133 gives.
-/
namespace Sys2Proof.Machine

theorem microSteps_add (m n : Nat) (s : State) :
    microSteps (m + n) s = microSteps n (microSteps m s) := by
  induction m generalizing s with
  | zero => simp [microSteps]
  | succ m ih => rw [Nat.succ_add]; exact ih _

theorem microSteps_succ (n : Nat) (s : State) :
    microSteps (n + 1) s = microStep (microSteps n s) := microSteps_add n 1 s

/-- What an exchange event does not depend on: the position. -/
theorem bxEvent_moveTo (k : Nat) (q : Pos) (s : State) :
    bxEvent k (moveTo q s) = moveTo q (bxEvent k s) := by
  unfold bxEvent
  by_cases hk : k = 0
  · subst hk; rfl
  · simp only [hk, if_false, moveTo_txb]
    cases bxAct s.txb k with
    | drive l v => cases l <;> rfl
    | sample i => rfl

theorem exchangeUpTo_fr (k : Nat) (s : State) : (exchangeUpTo k s).fr = s.fr := by
  induction k with
  | zero => rfl
  | succ k ih => rw [exchangeUpTo, bxEvent_fr, ih]

/-- `TXB <- FR[j]` (R126). -/
def loadByte (j : Nat) (s : State) : State := { s with txb := s.fr.getD j 0#8 }

@[simp] theorem loadByte_fr (j : Nat) (s : State) : (loadByte j s).fr = s.fr := rfl

/-- `RF[j] <- ACC`, `RFLEN <- j + 1` (R126). -/
def storeByte (j : Nat) (s : State) : State :=
  { s with rf := s.rf.setIfInBounds j s.acc, rflen := BitVec.ofNat 5 (j + 1) }

theorem byteEvent_first (j : Nat) (s : State) : byteEvent j 0 s = bxEvent 0 (loadByte j s) := rfl

theorem byteEvent_middle (j k : Nat) (s : State) (h0 : k ≠ 0) (h : k ≠ 32) :
    byteEvent j k s = bxEvent k s := by simp [byteEvent, h0, h]

theorem byteEvent_last (j : Nat) (s : State) : byteEvent j 32 s = storeByte j (bxEvent 32 s) := rfl

/-- The micro-step at event `k` of byte `j` of a session (R25, R126). -/
theorem microStep_byte (o : Fin 4) (j k : Nat) (s : State) (hj : j < s.fr.length) (hk : k < 33)
    (hp : s.pos = .ses o (33 * j + 1 + k)) :
    microStep s = moveTo (.ses o (33 * j + 1 + (k + 1))) (byteEvent j k s) := by
  have h0 : 33 * j + 1 + k ≠ 0 := by omega
  have h1 : 33 * j + 1 + k ≤ 33 * s.fr.length := by omega
  have h2 : (33 * j + 1 + k - 1) / 33 = j := by omega
  have h3 : (33 * j + 1 + k - 1) % 33 = k := by omega
  simp only [microStep, hp, sessionEvent, h0, h1, h2, h3, if_true, if_false]
  rfl

/-- The micro-steps of byte `j` before its last event: the byte exchange, `pos` counting along. -/
theorem byte_upTo (o : Fin 4) (j k : Nat) (s : State) (hp : s.pos = .ses o (33 * j + 1))
    (hj : j < s.fr.length) (hk : k < 32) :
    microSteps (k + 1) s =
      moveTo (.ses o (33 * j + 1 + (k + 1))) (exchangeUpTo (k + 1) (loadByte j s)) := by
  induction k with
  | zero => simp [microSteps, microStep_byte o j 0 s hj (by omega) hp, byteEvent_first, exchangeUpTo]
  | succ k ih =>
    rw [microSteps_succ, ih (by omega),
      microStep_byte o j (k + 1) _ (by simpa [exchangeUpTo_fr] using hj) (by omega) rfl,
      byteEvent_middle _ _ _ (by omega) (by omega), bxEvent_moveTo, moveTo_moveTo]
    rfl

/-- The 33 micro-steps of byte `j` (R126). -/
theorem byte_run (o : Fin 4) (j : Nat) (s : State) (hp : s.pos = .ses o (33 * j + 1))
    (hj : j < s.fr.length) :
    microSteps 33 s = moveTo (.ses o (33 * (j + 1) + 1))
      (storeByte j (afterExchange (received (loadByte j s)) (loadByte j s))) := by
  rw [microSteps_succ 32, byte_upTo o j 31 s hp hj (by omega),
    microStep_byte o j 32 _ (by simpa [exchangeUpTo_fr] using hj) (by omega) rfl,
    byteEvent_last, bxEvent_moveTo]
  rw [show bxEvent 32 (exchangeUpTo (31 + 1) (loadByte j s)) = exchangeUpTo 33 (loadByte j s) from rfl,
    exchange_run]
  rfl

theorem frameEvents_append (f r : List Byte) (b a : Byte) (h : f.length = r.length) :
    frameEvents (f ++ [b]) (r ++ [a]) = frameEvents f r ++ byteEvents b a := by
  induction f generalizing r with
  | nil => cases r <;> simp_all [frameEvents]
  | cons x f ih =>
    cases r with
    | nil => simp at h
    | cons y r => simp [frameEvents, ih r (by simpa using h)]

theorem putBytes_append (v : Vector Byte 16) (j : Nat) (r : List Byte) (a : Byte) :
    putBytes v j (r ++ [a]) = (putBytes v j r).setIfInBounds (j + r.length) a := by
  induction r generalizing v j with
  | nil => rfl
  | cons b r ih => rw [List.cons_append, putBytes, ih, putBytes, List.length_cons, Nat.add_right_comm, Nat.add_assoc]

/-- The state after the attention write and the first `r.length` bytes of a session. -/
def afterBytes (o : Fin 4) (r : List Byte) (s : State) : State :=
  { s with
    att := 0#1
    txb := (s.fr.take r.length).getLastD s.txb
    acc := r.getLastD s.acc
    clk := if r = [] then s.clk else 1#1
    cmd := if r = [] then s.cmd else bitOf ((s.fr.take r.length).getLastD 0#8) 7
    rf := putBytes s.rf 0 r
    rflen := BitVec.ofNat 5 r.length
    reads := s.reads + 8 * r.length
    draws := s.draws + 8 * r.length
    trace := s.trace ++ .write .att 0#1 :: frameEvents (s.fr.take r.length) r
    pos := .ses o (33 * r.length + 1) }

/-- The bytes `r` are what a session from `s` receives: byte `j` is what the exchange of `FR[j]`
receives after the bytes before it. -/
def Receives (o : Fin 4) (r : List Byte) (s : State) : Prop :=
  ∀ j, j < r.length → r[j]? = some (received (loadByte j (afterBytes o (r.take j) s)))

theorem bytes_run (o : Fin 4) (s : State) (hp : s.pos = .ses o 0) (j : Nat)
    (hj : j ≤ s.fr.length) :
    ∃ r, r.length = j ∧ Receives o r s ∧ microSteps (33 * j + 1) s = afterBytes o r s := by
  induction j with
  | zero =>
    refine ⟨[], rfl, fun j h => absurd h (by simp), ?_⟩
    simp [microSteps, microStep, hp, sessionEvent, lineWrite, moveTo, afterBytes, putBytes, frameEvents]
  | succ j ih =>
    obtain ⟨r, hl, hrec, hr⟩ := ih (by omega)
    have ha := byte_run o j (afterBytes o r s) (by simp [afterBytes, hl])
      (by simpa [afterBytes] using hj)
    generalize hav : received (loadByte j (afterBytes o r s)) = a at ha
    refine ⟨r ++ [a], by simp [hl], ?_, ?_⟩
    · intro k hk
      rw [List.length_append, List.length_singleton] at hk
      by_cases hkl : k < r.length
      · rw [List.getElem?_append_left hkl, List.take_append_of_le_length (by omega)]
        exact hrec k hkl
      · have hkj : k = r.length := by omega
        subst hkj
        rw [List.take_append_of_le_length (by omega), List.take_length, hl, hav]
        simp [← hl]
    rw [show 33 * (j + 1) + 1 = (33 * j + 1) + 33 by omega, microSteps_add, hr, ha]
    have ht : s.fr.take (j + 1) = s.fr.take j ++ [s.fr[j]] :=
      (List.take_append_getElem (by omega)).symm
    have hd : s.fr.getD j 0#8 = s.fr[j] := by simp [List.getD, List.getElem?_eq_getElem hj]
    have hf : (s.fr.take j).length = r.length := by simp [hl]; omega
    have hc : r ++ [a] ≠ [] := by simp
    simp only [afterBytes, afterExchange, loadByte, storeByte, moveTo, List.length_append,
      List.length_singleton, hl, ht, hd, hc, putBytes_append, frameEvents_append _ _ _ _ hf,
      List.getLastD_concat, if_false, Nat.zero_add, Nat.mul_add, Nat.mul_one, Nat.add_assoc,
      List.append_assoc, List.cons_append]

/-- The state R133 gives after a session on `FR` in which the bytes `r` were received, the position
still that of the last event. -/
def afterSessionOf (o : Fin 4) (r : List Byte) (s : State) : State :=
  { s with
    att := 1#1
    clk := 1#1
    cmd := bitOf (s.fr.getLastD 0#8) 7
    txb := s.fr.getLastD 0#8
    acc := r.getLastD 0#8
    rf := putBytes s.rf 0 r
    rflen := BitVec.ofNat 5 s.fr.length
    reads := s.reads + 8 * s.fr.length
    draws := s.draws + 8 * s.fr.length
    trace := s.trace ++ sessionEvents s.fr r
    pos := .ses o (33 * s.fr.length + 1) }

theorem getLastD_irrel (l : List Byte) (a b : Byte) (h : l ≠ []) : l.getLastD a = l.getLastD b := by
  cases l with
  | nil => exact absurd rfl h
  | cons x l => simp [List.getLastD]

theorem session_run (o : Fin 4) (s : State) (hp : s.pos = .ses o 0) (hn : s.fr ≠ []) :
    ∃ r, r.length = s.fr.length ∧ Receives o r s ∧
      microSteps (33 * s.fr.length + 2) s = endSession o (afterSessionOf o r s) := by
  obtain ⟨r, hl, hrec, hr⟩ := bytes_run o s hp s.fr.length (Nat.le_refl _)
  refine ⟨r, hl, hrec, ?_⟩
  have hrn : r ≠ [] := by intro h; subst h; exact hn (List.eq_nil_of_length_eq_zero hl.symm)
  rw [microSteps_succ, hr]
  have h1 : ¬ 33 * s.fr.length + 1 = 0 := by omega
  have h2 : ¬ 33 * s.fr.length + 1 ≤ 33 * s.fr.length := by omega
  simp only [microStep, afterBytes, hl, sessionEvent, h1, h2, if_false, hrn, List.take_length]
  rw [getLastD_irrel s.fr s.txb 0#8 hn, getLastD_irrel r s.acc 0#8 hrn]
  simp [afterSessionOf, lineWrite, sessionEvents]

/-- Through a loopback peer a session receives its own frame. -/
theorem receives_loopback (o : Fin 4) (r : List Byte) (s : State) (hl : r.length = s.fr.length)
    (hr : Receives o r s) (h : s.peer = .loopback) : r = s.fr := by
  apply List.ext_getElem hl
  intro j h1 h2
  have := hr j h1
  rw [received_loopback (loadByte j (afterBytes o (r.take j) s)) h, List.getElem?_eq_getElem h1] at this
  simpa [loadByte, afterBytes, List.getD, List.getElem?_eq_getElem h2] using this

/-- From a scripted peer that starts at byte `m` a session receives the bytes from `m` on. -/
theorem receives_script (o : Fin 4) (r : List Byte) (s : State) (bytes : List Byte) (m : Nat)
    (hr : Receives o r s) (h : s.peer = .script bytes) (hm : s.reads = 8 * m)
    (hb : m + r.length ≤ bytes.length) : r = (bytes.drop m).take r.length := by
  apply List.ext_getElem (by simp; omega)
  intro j h1 h2
  have hj := hr j h1
  rw [received_script (loadByte j (afterBytes o (r.take j) s)) bytes (m + j) bytes[m + j] h
    (by simp [loadByte, afterBytes, hm]; omega) (by simp),
    List.getElem?_eq_getElem h1] at hj
  simpa using hj

/-- The 33 micro-steps of `XCHG` (R117). -/
theorem xchg_run (s : State) (hp : s.pos = .bxs 0) :
    microSteps 33 s = finishOp { afterExchange (received s) s with rxd := received s } := by
  have key : ∀ k (hk : k < 33), microSteps k s = moveTo (.bxs ⟨k, hk⟩) (exchangeUpTo k s) := by
    intro k
    induction k with
    | zero => intro _; show s = moveTo (.bxs 0) s; rw [← hp]; rfl
    | succ k ih =>
      intro hk
      rw [microSteps_succ, ih (by omega)]
      simp only [microStep, moveTo_pos, xchgEvent, hk, dif_pos, bxEvent_moveTo, moveTo_moveTo]
      rfl
  have last : microStep (moveTo (.bxs ⟨32, by omega⟩) (exchangeUpTo 32 s)) =
      finishOp { moveTo (.bxs ⟨32, by omega⟩) (exchangeUpTo 33 s) with
        rxd := (exchangeUpTo 33 s).acc } := by
    simp only [microStep, moveTo_pos, xchgEvent, bxEvent_moveTo]
    rfl
  rw [microSteps_succ 32, key 32 (by omega), last, exchange_run]
  rfl

end Sys2Proof.Machine
end

