-- ==== Sys2Proof/Tests/Slice0.lean ====
section
/-!
SUPPORT. Tests: ill-formed terms, words written out from the spec's encodings, single steps with the
results 95_test_vectors.md gives, and a witness for the hypotheses of each obligation that has any.
`V<n>` names a vector of that file.
-/
namespace Sys2Proof.Tests

open Sys2Proof.Machine

/-- Right after reset with the default catalogue and `CMD_RESET` = 0, the vectors' start state. -/
def start : State := State.resetWith ⟨defaultCatalogue, 0#1, 10, 500, 0, ⟨0, 1, 2, 3⟩⟩

/-- Sixteen bytes of which the first are given. -/
def buffer (bs : List Byte) : Vector Byte 16 := putBytes (Vector.replicate 16 0#8) 0 bs

/-- `start` with a Response Frame, as `SETRF` leaves it (R85). -/
def withFrame (bs : List Byte) : State :=
  { start with rf := buffer bs, rflen := BitVec.ofNat 5 bs.length }

/-- A field of the state after a step, where the step answers a next state. -/
def after {α : Type} (o : Host.Outcome State Fault Refusal) (f : State → α) : Option α :=
  match o with
  | .next t => some (f t)
  | .fault _ => none
  | .refused _ => none

/-- The Poll Result registers and the Button Set. -/
def pollResult (s : State) : Bit × List Nat × BitVec 16 :=
  (s.analog, s.axis.toList.map BitVec.toNat, s.pressed)

/-! ### Well-formedness: for each check a term it refuses (R76) -/

theorem test_buttonSelect_needs_its_bit_clear :
    (Instr.buttonSelect 0x0001#16).wellFormed = false ∧
      (Instr.buttonSelect 0xFFFE#16).wellFormed = true := by decide

theorem test_buttonL3_needs_its_bit_clear :
    (Instr.buttonL3 0x0002#16).wellFormed = false ∧
      (Instr.buttonL3 0xFFFD#16).wellFormed = true := by decide

theorem test_buttonR3_needs_its_bit_clear :
    (Instr.buttonR3 0x0004#16).wellFormed = false ∧
      (Instr.buttonR3 0xFFFB#16).wellFormed = true := by decide

theorem test_buttonStart_needs_its_bit_clear :
    (Instr.buttonStart 0x0008#16).wellFormed = false ∧
      (Instr.buttonStart 0xFFF7#16).wellFormed = true := by decide

theorem test_buttonUp_needs_its_bit_clear :
    (Instr.buttonUp 0x0010#16).wellFormed = false ∧
      (Instr.buttonUp 0xFFEF#16).wellFormed = true := by decide

theorem test_buttonRight_needs_its_bit_clear :
    (Instr.buttonRight 0x0020#16).wellFormed = false ∧
      (Instr.buttonRight 0xFFDF#16).wellFormed = true := by decide

theorem test_buttonDown_needs_its_bit_clear :
    (Instr.buttonDown 0x0040#16).wellFormed = false ∧
      (Instr.buttonDown 0xFFBF#16).wellFormed = true := by decide

theorem test_buttonLeft_needs_its_bit_clear :
    (Instr.buttonLeft 0x0080#16).wellFormed = false ∧
      (Instr.buttonLeft 0xFF7F#16).wellFormed = true := by decide

theorem test_buttonL2_needs_its_bit_clear :
    (Instr.buttonL2 0x0100#16).wellFormed = false ∧
      (Instr.buttonL2 0xFEFF#16).wellFormed = true := by decide

theorem test_buttonR2_needs_its_bit_clear :
    (Instr.buttonR2 0x0200#16).wellFormed = false ∧
      (Instr.buttonR2 0xFDFF#16).wellFormed = true := by decide

theorem test_buttonL1_needs_its_bit_clear :
    (Instr.buttonL1 0x0400#16).wellFormed = false ∧
      (Instr.buttonL1 0xFBFF#16).wellFormed = true := by decide

theorem test_buttonR1_needs_its_bit_clear :
    (Instr.buttonR1 0x0800#16).wellFormed = false ∧
      (Instr.buttonR1 0xF7FF#16).wellFormed = true := by decide

theorem test_buttonTriangle_needs_its_bit_clear :
    (Instr.buttonTriangle 0x1000#16).wellFormed = false ∧
      (Instr.buttonTriangle 0xEFFF#16).wellFormed = true := by decide

theorem test_buttonCircle_needs_its_bit_clear :
    (Instr.buttonCircle 0x2000#16).wellFormed = false ∧
      (Instr.buttonCircle 0xDFFF#16).wellFormed = true := by decide

theorem test_buttonCross_needs_its_bit_clear :
    (Instr.buttonCross 0x4000#16).wellFormed = false ∧
      (Instr.buttonCross 0xBFFF#16).wellFormed = true := by decide

theorem test_buttonSquare_needs_its_bit_clear :
    (Instr.buttonSquare 0x8000#16).wellFormed = false ∧
      (Instr.buttonSquare 0x7FFF#16).wellFormed = true := by decide

/-! ### Words written out from the encodings -/

/-- R80, R81: the `CTRL` words of 95_test_vectors.md and the table's patterns, bit by bit. -/
theorem test_decode_operations :
    decode .ctrl [0b10000000] = .ok (.xchg 0) ∧
    decode .ctrl [0b10000001] = .ok (.session 0) ∧
    decode .ctrl [0b10000011] = .ok (.init 0) ∧
    decode .ctrl [0b10000100] = .ok (.poll 0) ∧
    decode .ctrl [0b10000101] = .ok (.decode 0) ∧
    decode .ctrl [0b10101001] = .ok (.session 5) := by decide

/-- R81: `CTRL` = 0x82 + 8 * `SEL`. -/
theorem test_decode_csession :
    decode .ctrl [0b10000010] = .ok .csessionEnterConfig ∧
    decode .ctrl [0b10001010] = .ok .csessionSetMode ∧
    decode .ctrl [0b10010010] = .ok .csessionExitConfig ∧
    decode .ctrl [0b10011010] = .ok .csessionReadData ∧
    decode .ctrl [0b10100010] = .ok .csessionMotorEnable ∧
    decode .ctrl [0b10101010] = .ok .csessionGetStatus := by decide

/-- R83, V70 to V75. -/
theorem test_decode_reserved :
    decode .ctrl [0b10000110] = .ok (.reservedOp6 0) ∧
    decode .ctrl [0b10000111] = .ok (.reservedOp7 0) ∧
    decode .ctrl [0b11000100] = .ok (.reservedBit6 0b000100) ∧
    decode .ctrl [0b10110010] = .ok .reservedSel6 ∧
    decode .ctrl [0b10111010] = .ok .reservedSel7 ∧
    decode .ctrl [0b00000100] = .ok (.nopStart0 0b0000100) := by decide

/-- R101 to R106, V1 to V6. -/
theorem test_decode_frames :
    decode .commandFrame [0x01, 0x43, 0x00, 0x01, 0, 0, 0, 0, 0] = .ok .frameEnterConfig ∧
    decode .commandFrame [0x01, 0x44, 0x00, 0x01, 0, 0, 0, 0, 0] = .ok .frameSetMode ∧
    decode .commandFrame [0x01, 0x43, 0x00, 0x00, 0x5A, 0x5A, 0x5A, 0x5A, 0x5A]
      = .ok .frameExitConfig ∧
    decode .commandFrame [0x01, 0x42, 0x00, 0x00, 0, 0, 0, 0, 0] = .ok .frameReadData ∧
    decode .commandFrame [0x01, 0x4D, 0x00, 0x00, 0x01, 0xFF, 0xFF, 0xFF, 0xFF]
      = .ok .frameMotorEnable ∧
    decode .commandFrame [0x01, 0x45, 0x00, 0x5A, 0x5A, 0x5A, 0x5A, 0x5A, 0x5A]
      = .ok .frameGetStatus ∧
    decode .commandFrame [0x01, 0x45, 0x00, 0x5A, 0x5A, 0x5A, 0x5A, 0x5A, 0x5B]
      = .error .otherFrame ∧
    decode .commandFrame [0x01, 0x42] = .error (.wrongLength .commandFrame 2) := by decide

/-- R75. -/
theorem test_decode_mode_bytes :
    decode .modeByte [0x41] = .ok .modeDigital ∧ decode .modeByte [0x73] = .ok .modeAnalog ∧
    decode .modeByte [0x99] = .error (.unrecognizedMode 0x99) := by decide

/-- V56: the mask of each button alone, low octet first. -/
theorem test_decode_buttons :
    decode (.mask16 0) [0xFE, 0xFF] = .ok (.buttonSelect 0xFFFE) ∧
    decode (.mask16 1) [0xFD, 0xFF] = .ok (.buttonL3 0xFFFD) ∧
    decode (.mask16 2) [0xFB, 0xFF] = .ok (.buttonR3 0xFFFB) ∧
    decode (.mask16 3) [0xF7, 0xFF] = .ok (.buttonStart 0xFFF7) ∧
    decode (.mask16 4) [0xEF, 0xFF] = .ok (.buttonUp 0xFFEF) ∧
    decode (.mask16 5) [0xDF, 0xFF] = .ok (.buttonRight 0xFFDF) ∧
    decode (.mask16 6) [0xBF, 0xFF] = .ok (.buttonDown 0xFFBF) ∧
    decode (.mask16 7) [0x7F, 0xFF] = .ok (.buttonLeft 0xFF7F) ∧
    decode (.mask16 8) [0xFF, 0xFE] = .ok (.buttonL2 0xFEFF) ∧
    decode (.mask16 9) [0xFF, 0xFD] = .ok (.buttonR2 0xFDFF) ∧
    decode (.mask16 10) [0xFF, 0xFB] = .ok (.buttonL1 0xFBFF) ∧
    decode (.mask16 11) [0xFF, 0xF7] = .ok (.buttonR1 0xF7FF) ∧
    decode (.mask16 12) [0xFF, 0xEF] = .ok (.buttonTriangle 0xEFFF) ∧
    decode (.mask16 13) [0xFF, 0xDF] = .ok (.buttonCircle 0xDFFF) ∧
    decode (.mask16 14) [0xFF, 0xBF] = .ok (.buttonCross 0xBFFF) ∧
    decode (.mask16 15) [0xFF, 0x7F] = .ok (.buttonSquare 0x7FFF) := by decide

/-- R77. -/
theorem test_decode_axes :
    decode (.axisByte 0) [0x12] = .ok (.axisRightX 0x12) ∧
    decode (.axisByte 1) [0x34] = .ok (.axisRightY 0x34) ∧
    decode (.axisByte 2) [0x56] = .ok (.axisLeftX 0x56) ∧
    decode (.axisByte 3) [0x78] = .ok (.axisLeftY 0x78) := by decide

/-- Words that carry no format (log 9). -/
theorem test_table_words :
    decodeTableWord 8 0x80 = some (.xchg 0) ∧ decodeTableWord 8 0x41 = some .modeDigital ∧
    decodeTableWord 8 0x40 = some (.nopStart0 0x40) ∧
    decodeTableWord 16 0xEFFF = some (.buttonTriangle 0xEFFF) ∧ decodeTableWord 16 0xFFFF = none ∧
    decodeTableWord 72 0x014D000001FFFFFFFF = some .frameMotorEnable ∧
    decodeTableWord 24 0 = none := by decide

/-! ### The decoder (V40 to V55) -/

theorem test_V40_all_pressed :
    after (exec (.decode 0) (withFrame [0xFF, 0x73, 0x5A, 0, 0, 0x12, 0x34, 0x56, 0x78])) pollResult
      = some (1, [18, 52, 86, 120], 0xFFFF) := by decide

theorem test_V43_digital_ignores_axes :
    after (exec (.decode 0) (withFrame [0xFF, 0x41, 0x5A, 0, 0, 0x12, 0x34, 0x56, 0x78])) pollResult
      = some (0, [127, 127, 127, 127], 0xFFFF) := by decide

theorem test_V48_unrecognized :
    after (exec (.decode 3) (withFrame [0xFF, 0x99, 0x5A, 0xFB, 0xFD, 1, 2, 3, 4])) pollResult
      = some (0, [127, 127, 127, 127], 0x0204) := by decide

theorem test_V49_set :
    after (exec (.decode 0) (withFrame [0x12, 0x73, 0x34, 0x55, 0xAA, 0, 0xFF, 0x7F, 0x80]))
      callerRecord = some (1, [0, 255, 127, 128],
        [.l3, .start, .right, .left, .l2, .l1, .triangle, .cross]) := by decide

theorem test_V51_short :
    after (exec (.decode 0) (withFrame [0xFF, 0x73, 0x5A, 0, 0, 1, 2, 3])) pollResult
      = some (0, [127, 127, 127, 127], 0) := by decide

theorem test_V53_long :
    after (exec (.decode 0) (withFrame [0xFF, 0x73, 0x5A, 0xFF, 0xEF, 0x80, 0x80, 0x80, 0x80, 0xAA,
      0xBB])) pollResult = some (1, [128, 128, 128, 128], 0x1000) := by decide

/-- V92: `STATUS` after `DECODE` from reset. -/
theorem test_V92_status : after (exec (.decode 0) start) statusByte = some 0x02 := by decide

/-- V47 by the fields of the frame, one word after another: each keeps what the others put. -/
theorem test_field_words :
    after (exec .modeAnalog (withFrame [0xFF, 0x41, 0x5A, 0xEF, 0xFF, 0x80, 0x7F, 0x00, 0xFE]))
      pollResult = some (1, [128, 127, 0, 254], 0x0010) ∧
    after (exec (.axisLeftY 0xFF) (withFrame [0xFF, 0x73, 0x5A, 0xEF, 0xFF, 0x80, 0x7F, 0x00, 0xFE]))
      pollResult = some (1, [128, 127, 0, 255], 0x0010) ∧
    after (exec (.buttonUp 0xFFEF) (withFrame [0xFF, 0x73, 0x5A, 0xFF, 0xFE, 0x80, 0x7F, 0x00, 0xFF]))
      pollResult = some (1, [128, 127, 0, 255], 0x0010) := by decide

/-! ### Starts, refusals and host moves (V70 to V90) -/

/-- R117: the start of `XCHG`. -/
theorem test_xchg_starts :
    after (exec (.xchg 0) { start with txd := 0xA5 }) (fun t => (t.txb, t.pos, statusByte t))
      = some (0xA5, .bxs 0, 0x01) := by decide

/-- V20: the frame in flight is `CF[0..7]`. -/
theorem test_session_latches_its_frame :
    after (exec (.session 0) { start with cf := buffer [1, 0x42, 0, 0, 0, 0, 0, 0, 9], cflen := 8 })
      (fun t => (t.fr, t.pos)) = some ([1, 0x42, 0, 0, 0, 0, 0, 0], .ses 0 0) := by decide

/-- V23, V24, V76. -/
theorem test_session_refusals :
    after (exec (.session 0) { start with cflen := 7 }) id = some { start with cflen := 7 } ∧
    after (exec (.session 0) { start with cflen := 17 }) id = some { start with cflen := 17 } ∧
    after (exec (.session 0) start) id = some start := by decide

/-- R132, V2, V5. -/
theorem test_csession_takes_its_entry :
    after (exec .csessionSetMode start) (fun t => (t.fr, t.selr))
      = some ([0x01, 0x44, 0x00, 0x01, 0, 0, 0, 0, 0], 1) ∧
    after (exec .csessionMotorEnable start) (fun t => (t.fr, t.selr))
      = some ([0x01, 0x4D, 0x00, 0x00, 0x01, 0xFF, 0xFF, 0xFF, 0xFF], 4) := by decide

/-- R140: `INIT` clears `CFG_FAIL` and starts with the enter-config frame. -/
theorem test_init_starts :
    after (exec (.init 0) { start with cfgFail := 1 }) (fun t => (t.cfgFail, t.fr.take 2, t.pos))
      = some (0, [0x01, 0x43], .ses 0 0) := by decide

/-- V78. -/
theorem test_poll_ignores_sel :
    after (step { start with turns := [.write .ctrl 0xBC] }) (fun t => (t.fr.take 2, t.opr))
      = some ([0x01, 0x42], 4) := by decide

/-- V36, V31: the last event of `INIT` on mode bytes 0x72, 0x73 and 0x41. -/
theorem test_init_validates :
    let last (m : Byte) : State := { withFrame [0xFF, m] with
      opr := 3, busy := 1, att := 0, fr := List.replicate 9 0, pos := .ses 3 298 }
    after (step (last 0x72)) statusByte = some 0x06 ∧
    after (step (last 0x73)) statusByte = some 0x02 ∧
    after (step (last 0x41)) statusByte = some 0x02 := by decide

/-- V16, `k` = 3: the first sample of an exchange answered by 0x73 is 1, at bit 0. -/
theorem test_sample :
    let s := { start with txb := 0x42, busy := 1, pos := .bxs 7, peer := .script [0x73], reads := 1,
                          acc := 1, clk := 0 }
    after (step s) (fun t => (t.acc, t.reads, t.trace)) = some (0x03, 2, [.read 1]) := by decide

/-- R85, R105: the MotorEnable frame goes through `CF` and is the frame in flight. -/
theorem test_frame_word :
    after (exec .frameMotorEnable start) (fun t => (t.cf[5], t.cf[9], t.cflen, t.fr.length, t.opr))
      = some (0xFF, 0x00, 9, 9, 1) := by decide

/-- V70 to V75. -/
theorem test_reserved_words_change_nothing :
    ∀ w ∈ [0x86#8, 0x87, 0xC4, 0xB2, 0xBA, 0x04, 0x81],
      after (step { start with turns := [.write .ctrl w] }) id = some start := by decide

/-- V77: `RFLEN <- 17` is refused, 16 is not; 0x29 = 41 is above 16 too (R83). -/
theorem test_V77_rflen :
    after (step { start with rflen := 5, turns := [.write .rflen 17] }) State.rflen = some 5 ∧
    after (step { start with rflen := 5, turns := [.write .rflen 16] }) State.rflen = some 16 ∧
    after (step { start with rflen := 5, turns := [.write .rflen 0x29] }) State.rflen = some 5 := by
  decide

/-- V80, V81: a busy block ignores host writes. -/
theorem test_V80_busy :
    let s := { start with txd := 0x42, busy := 1, pos := .bxs 3, txb := 0x42 }
    after (step { s with turns := [.write .txd 0x55] }) State.txd = some 0x42 ∧
    after (step { s with turns := [.write .ctrl 0x84] }) id = some s := by decide

/-- V82, V83. -/
theorem test_V82_status_is_read_only :
    after (step { start with turns := [.write .status 0xFF] }) id = some start ∧
    after (step { start with hostGot := 7, turns := [.read .ctrl] }) State.hostGot = some 0 := by
  decide

/-- V90, V91: reset in the middle of byte 3 of a `POLL`. -/
theorem test_V90_reset :
    let s := { start with busy := 1, att := 0, clk := 0, opr := 4, pos := .ses 0 101, txd := 9,
                          rf := buffer [1, 2, 3], rflen := 3, turns := [.reset],
                          trace := [.write .cmd 0] }
    after (step s) id = some start := by decide

/-- R61. -/
theorem test_second_driver_is_refused :
    step { start with turns := [.intruder .clk 0] } = .refused (.secondDriver .clk) := rfl

/-- P1: the register writes of `XCHG 0x42` (R85). -/
theorem test_P1_moves :
    programMoves [.reset, .xchg 0x42] =
      [.reset, .write .txd 0x42, .write .ctrl 0x80, .wait] := by decide

/-- R27 to R38: register numbers. -/
theorem test_register_numbers :
    hregNumber .rflen = 5 ∧ hregNumber (.axis 3) = 11 ∧ hregNumber .lines = 12 ∧
    hregNumber (.cf 15) = 31 ∧ hregNumber (.rf 0) = 32 ∧ hregNumber (.rf 15) = 47 := by decide

/-! ### Witnesses: the hypotheses of the obligations are met together -/

/-- In the middle of a session of `INIT`, before its second event. -/
def inSession : State :=
  { start with
    opr := 3, busy := 1, att := 0, pos := .ses 0 1
    fr := catalogEntry defaultCatalogue 0 }

theorem witness_DecodeOfEncode : (Instr.buttonSquare 0x7FFF#16).wellFormed = true := by decide

theorem witness_EncodeOfDecode : decode (.mask16 15) [0xFF, 0x7F] = .ok (.buttonSquare 0x7FFF) := by
  decide

theorem witness_StepRuns :
    (∃ s : State, s.turns = [.present (.frame frameReadDataBytes)] ∧
      decode (Item.frame frameReadDataBytes).format (Item.frame frameReadDataBytes).bytes
        = .ok .frameReadData) ∧
    (∃ s : State, s.turns = [.write .ctrl 0x84, .wait] ∧ decode .ctrl [0x84] = .ok (.poll 0)) ∧
    (∃ s : State, s.turns = [.present (.mode 0x99)] ∧
      decode (Item.mode 0x99).format (Item.mode 0x99).bytes = .error (.unrecognizedMode 0x99)) :=
  ⟨⟨{ start with turns := _ }, rfl, by decide⟩, ⟨{ start with turns := _ }, rfl, by decide⟩,
    ⟨{ start with turns := _ }, rfl, by decide⟩⟩

/-- The three kinds of word that can be no row. -/
theorem witness_OtherWords :
    start.busy = 0#1 ∧
    ({ start with turns := [.present (.mask 15 0xFFFF)] } : State).turns
      = .present (.mask 15 0xFFFF) :: [] ∧
    decode (Item.mask 15 0xFFFF).format (Item.mask 15 0xFFFF).bytes = .error (.notPressed 15) ∧
    decode (Item.mode 0x72).format (Item.mode 0x72).bytes = .error (.unrecognizedMode 0x72) ∧
    decode (Item.frame (Vector.replicate 9 0)).format (Item.frame (Vector.replicate 9 0)).bytes
      = .error .otherFrame := by decide

/-- V48 by its mode byte: 0x99 is not Analog, and the buttons decode. -/
theorem test_unrecognized_mode_word :
    after (step { withFrame [0xFF, 0x73, 0x5A, 0xFB, 0xFD, 1, 2, 3, 4] with
      turns := [.present (.mode 0x99)] }) pollResult = some (0, [127, 127, 127, 127], 0x0204) := by
  decide

theorem witness_FetchedWord : decodeTableWord 72 0x014200000000000000 = some .frameReadData := by
  decide

theorem witness_SequencerMoves :
    start.turns = [] ∧ runOver start = true ∧ inSession.turns = [] ∧ inSession.pos ≠ .idle ∧
    ({ start with turns := [.tick] } : State).turns = .tick :: [] ∧
    ({ inSession with turns := [.wait] } : State).busy = 1#1 ∧
    ({ start with turns := [.wait] } : State).busy = 0#1 := by decide

theorem witness_ResetAtAnyMicroStep :
    ({ inSession with turns := [.reset, .wait] } : State).turns = .reset :: [.wait] := by decide

theorem witness_BusyBlock :
    inSession.busy = 1#1 ∧
    ({ inSession with turns := [.write .ctrl 0x84] } : State).turns = .write .ctrl 0x84 :: [] ∧
    ({ inSession with turns := [.present (.mode 0x73)] } : State).turns = .present (.mode 0x73) :: [] :=
  by decide

theorem witness_HostWrites :
    start.busy = 0#1 ∧
    ({ start with turns := [.write .txd 0xFF] } : State).turns = .write .txd 0xFF :: [] ∧
    ({ start with turns := [.write .cflen 0xFF] } : State).turns = .write .cflen 0xFF :: [] ∧
    ({ start with turns := [.write .rflen 16] } : State).turns = .write .rflen 16 :: [] ∧
    (16#8).toNat ≤ 16 ∧
    ({ start with turns := [.write .rflen 17] } : State).turns = .write .rflen 17 :: [] ∧
    16 < (17#8).toNat ∧
    ({ start with turns := [.write (.cf 15) 1] } : State).turns = .write (.cf 15) 1 :: [] ∧
    ({ start with turns := [.write (.rf 0) 1] } : State).turns = .write (.rf 0) 1 :: [] := by decide

theorem witness_ReadOnlyRegisters :
    ({ start with turns := [.write (.axis 3) 1] } : State).turns = .write (.axis 3) 1 :: [] ∧
    HReg.axis 3 ∈ [HReg.status, .rxd, .result, .pressed, .axis 0, .axis 1, .axis 2, .axis 3, .lines] :=
  by decide

theorem witness_HostReads :
    ({ start with turns := [.read .pressed] } : State).turns = .read .pressed :: [] ∧
    start.busy = 0#1 ∧
    ({ inSession with turns := [.read .status] } : State).turns = .read .status :: [] ∧
    HReg.status ∈ [HReg.ctrl, .status, .txd, .cflen, .lines] ∧
    (∃ j, HReg.cf 15 = .cf j) := by
  refine ⟨rfl, rfl, rfl, by decide, 15, rfl⟩

/-- For every obligation whose hypothesis is an idle block: `XCHG`, `INIT`, `POLL`, the mode words, the
host moves of R85, `POLL` as read-data then `DECODE`. -/
theorem witness_idle : start.busy = 0#1 := by decide

theorem witness_Session :
    let s8 := { start with cflen := 8#5 }
    let s16 := { start with cflen := 16#5 }
    s8.busy = 0#1 ∧ 8 ≤ s8.cflen.toNat ∧ s8.cflen.toNat ≤ 16 ∧ 8 ≤ s16.cflen.toNat ∧
    s16.cflen.toNat ≤ 16 := by decide

theorem witness_SessionRefuses :
    ({ start with cflen := 7#5 } : State).cflen.toNat < 8 ∧
    16 < ({ start with cflen := 17#5 } : State).cflen.toNat := by decide

theorem witness_Csession :
    start.busy = 0#1 ∧
    (Instr.csessionGetStatus, (5 : Fin 6)) ∈ [(Instr.csessionEnterConfig, (0 : Fin 6)),
      (.csessionSetMode, 1), (.csessionExitConfig, 2), (.csessionReadData, 3),
      (.csessionMotorEnable, 4), (.csessionGetStatus, 5)] := by decide

theorem witness_Decode :
    ({ start with rflen := 16#5 } : State).rflen.toNat ≤ 16 ∧
    16 < ({ start with rflen := 17#5 } : State).rflen.toNat ∧
    ({ start with rflen := 8#5 } : State).rflen.toNat < 9 := by decide

/-- The last clause of `NothingFaults`: another agent drives `CLK` next. -/
theorem witness_NothingFaults :
    ({ start with turns := [.intruder .clk 0] } : State).turns = .intruder .clk 0 :: [] := by decide

theorem witness_FrameWords :
    start.busy = 0#1 ∧
    (Instr.frameGetStatus, ([0x01, 0x45, 0x00, 0x5A, 0x5A, 0x5A, 0x5A, 0x5A, 0x5A] : List Byte)) ∈ [
      (Instr.frameEnterConfig, ([0x01, 0x43, 0x00, 0x01, 0x00, 0x00, 0x00, 0x00, 0x00] : List Byte)),
      (.frameSetMode, [0x01, 0x44, 0x00, 0x01, 0x00, 0x00, 0x00, 0x00, 0x00]),
      (.frameExitConfig, [0x01, 0x43, 0x00, 0x00, 0x5A, 0x5A, 0x5A, 0x5A, 0x5A]),
      (.frameReadData, [0x01, 0x42, 0x00, 0x00, 0x00, 0x00, 0x00, 0x00, 0x00]),
      (.frameMotorEnable, [0x01, 0x4D, 0x00, 0x00, 0x01, 0xFF, 0xFF, 0xFF, 0xFF]),
      (.frameGetStatus, [0x01, 0x45, 0x00, 0x5A, 0x5A, 0x5A, 0x5A, 0x5A, 0x5A])] := by decide

theorem witness_ButtonWords :
    start.busy = 0#1 ∧ (0x7FFF#16).getLsbD 15 = false ∧ (0xFFFE#16).getLsbD 0 = false ∧
    (Instr.buttonSquare 0x7FFF, 15) ∈ [(Instr.buttonSelect 0x7FFF, 0), (.buttonL3 0x7FFF, 1),
      (.buttonR3 0x7FFF, 2), (.buttonStart 0x7FFF, 3), (.buttonUp 0x7FFF, 4),
      (.buttonRight 0x7FFF, 5), (.buttonDown 0x7FFF, 6), (.buttonLeft 0x7FFF, 7),
      (.buttonL2 0x7FFF, 8), (.buttonR2 0x7FFF, 9), (.buttonL1 0x7FFF, 10), (.buttonR1 0x7FFF, 11),
      (.buttonTriangle 0x7FFF, 12), (.buttonCircle 0x7FFF, 13), (.buttonCross 0x7FFF, 14),
      (.buttonSquare 0x7FFF, 15)] := by decide

theorem witness_AxisWords :
    (Instr.axisLeftY 0xFF, (3 : Fin 4)) ∈ [(Instr.axisRightX 0xFF, (0 : Fin 4)),
      (.axisRightY 0xFF, 1), (.axisLeftX 0xFF, 2), (.axisLeftY 0xFF, 3)] := by decide

/-- The decoder's statements: a short frame, a full Analog one and a full unrecognized one; the modes
of the axis clauses. -/
theorem witness_decoder :
    (8 : Nat) < 9 ∧ (9 : Nat) ≤ 9 ∧ (buffer [0xFF, 0x73])[1] = 0x73#8 ∧
    (buffer [0xFF, 0x99])[1] ≠ 0x41#8 ∧ (buffer [0xFF, 0x99])[1] ≠ 0x73#8 ∧
    (decodeFrame 9 (buffer [0xFF, 0x73])).analog = 1#1 ∧
    (decodeFrame 9 (buffer [0xFF, 0x41])).analog = 0#1 := by decide

theorem witness_UnrecognizedMode :
    let s := { start with rf := buffer [0xFF, 0x99], rflen := 9#5 }
    s.busy = 0#1 ∧ 9 ≤ s.rflen.toNat ∧ s.rflen.toNat ≤ 16 ∧ s.rf[1] ≠ 0x41#8 ∧
    s.rf[1] ≠ 0x73#8 := by decide

/-- Two frames that differ in bytes 0, 2 and 9 only, of 9 and of 16 bytes. -/
theorem witness_DecoderIgnores :
    let r := buffer [0, 0x73, 0, 1, 2, 3, 4, 5, 6, 0]
    let r' := buffer [7, 0x73, 7, 1, 2, 3, 4, 5, 6, 7]
    9 ≤ 9 ∧ 9 ≤ 16 ∧ r[1] = r'[1] ∧ r[3] = r'[3] ∧ r[4] = r'[4] ∧ r[1] = 0x73#8 ∧ r[5] = r'[5] ∧
    r[6] = r'[6] ∧ r[7] = r'[7] ∧ r[8] = r'[8] ∧ r ≠ r' := by decide

theorem witness_ButtonSet :
    (Button.square, 15) ∈ [(Button.select, 0), (.square, 15)] := by decide

theorem witness_SessionCounts :
    (List.replicate 16 (0xFF#8 : Byte)).length = 16 ∧ (List.replicate 8 (0#8 : Byte)).length = 8 := by
  decide

theorem witness_LeastDurations :
    (List.replicate 9 (0x55#8 : Byte)).length = (List.replicate 9 (0#8 : Byte)).length ∧
    (List.replicate 9 (0x55#8 : Byte)).length = 9 := by decide

theorem witness_OneEvent : inSession.pos ≠ .idle ∧ start.pos = .idle := by decide

theorem witness_Loopback :
    let s := { start with peer := .loopback, cflen := 8#5 }
    s.busy = 0#1 ∧ s.peer = .loopback ∧ 8 ≤ s.cflen.toNat ∧ s.cflen.toNat ≤ 16 := by decide

theorem witness_ScriptedPeer :
    let s := { start with peer := .script [0x73, 0x41], reads := 8 }
    s.busy = 0#1 ∧ s.peer = .script [0x73, 0x41] ∧ s.reads = 8 * 1 ∧
    [0x73#8, 0x41][1]? = some 0x41#8 := by decide

/-- V60's script. -/
theorem witness_EqualAnswers :
    let f : List Byte := [0xFF, 0x73, 0x5A, 0xEF, 0xFF, 0x80, 0x7F, 0x00, 0xFF]
    let s := { start with peer := .script (f ++ f) }
    s.busy = 0#1 ∧ s.peer = .script (f ++ f) ∧ s.reads = 8 * 0 ∧ f.length = 9 ∧
    ((f ++ f).drop 0).take 9 = f ∧ ((f ++ f).drop (0 + 9)).take 9 = f := by decide

/-- The invariant holds in the middle of a session too. -/
theorem witness_Invariant : Inv inSession where
  busy := by decide
  done := by decide
  att := by decide
  clk := by decide
  pos := by decide
  len := by decide
  sel := by decide
  frame := by decide
  filled := by intro n h; cases h; decide
  rflen := by decide
  config := by decide
  axes := by decide

theorem witness_EveryStep :
    Inv inSession ∧ ∃ t, step inSession = .next t := ⟨witness_Invariant, _, rfl⟩

theorem witness_CatalogueIsImmutable : ∃ t, step start = .next t := ⟨_, rfl⟩

/-- Steps that change the Poll Result: the last event of a `POLL`, a `DECODE`, a field word, a reset. -/
theorem witness_OnlyPollDecodes :
    let s := { start with
      opr := 4#3, busy := 1#1, fr := List.replicate 9 0#8, pos := .ses 0 298, rflen := 9#5 }
    s.opr = 4#3 ∧ s.pos = .ses 0 298 ∧ 33 * s.fr.length < 298 ∧
    after (step s) State.pressed = some 0xFFFF#16 ∧ s.pressed ≠ 0xFFFF#16 ∧
    after (step { start with rflen := 9#5, turns := [.write .ctrl 0x85] }) State.pressed
      = some 0xFFFF#16 ∧
    after (step { start with turns := [.present (.mask 0 0xFFFE)] }) State.pressed = some 1#16 ∧
    start.pressed ≠ 1#16 ∧
    after (step { start with pressed := 1#16, turns := [.reset] }) State.pressed = some 0#16 := by
  decide

/-- One step raises `CFG_FAIL`, another clears it. -/
theorem witness_OnlyInitSignals :
    let s := { start with opr := 3#3, busy := 1#1, fr := List.replicate 9 0#8, pos := .ses 3 298 }
    let u := { start with cfgFail := 1#1, turns := [.write .ctrl 0x83] }
    after (step s) State.cfgFail = some 1#1 ∧ s.cfgFail ≠ 1#1 ∧
    after (step u) State.cfgFail = some 0#1 ∧ u.cfgFail ≠ 0#1 := by decide

theorem witness_FrameInFlight :
    inSession.busy = 1#1 ∧ inSession.pos = .ses 0 1 ∧ 1 ≤ 33 * inSession.fr.length ∧
    inSession.turns = [] ∧ ∃ t, step inSession = .next t :=
  ⟨by decide, by decide, by decide, by decide, _, rfl⟩

theorem witness_XchgMicroStep :
    ({ start with pos := .bxs 32 } : State).pos = .bxs 32 ∧
    ({ start with pos := .bxs 0 } : State).pos = .bxs 0 := by decide

/-- The attention write, the first event of byte 0, a middle one, and the last. -/
theorem witness_SessionMicroStep :
    let s0 := { inSession with pos := .ses 0 0 }
    (1 ≠ 0 ∧ (1 - 1) % 33 = 0) ∧ (2 - 1) % 33 ≠ 0 ∧ 2 % 33 ≠ 0 ∧
    let s33 := { inSession with pos := .ses 0 33 }
    s0.pos = .ses 0 0 ∧ 0 ≤ 33 * s0.fr.length ∧ s33.pos = .ses 0 33 ∧ 33 ≤ 33 * s33.fr.length ∧
    33 = 33 * ((0 : Fin 16).val + 1) := by decide

theorem witness_Settle : ({ start with pos := .settle } : State).pos = .settle := by decide

theorem witness_NoOperationReads :
    (∀ sel, Instr.poll 0 ≠ .init sel) ∧ ({ start with opr := 4#3 } : State).opr ≠ 3#3 := by
  refine ⟨by decide, by decide⟩

end Sys2Proof.Tests
end

section
/-!
PROOFS. One micro-step and one step: what the record of line events gains in a micro-step (R9, R25), and
what a step does with the turn at the head of the list (R8, R196).
-/
namespace Sys2Proof.Machine

/-! ### The record of events -/

/-- An event of a byte exchange is one line event (R111). -/
theorem bxEvent_trace (k : Nat) (s : State) : ∃ e, (bxEvent k s).trace = s.trace ++ [e] := by
  obtain ⟨_, _, _, _, _, e, h⟩ := bxEvent_frame k s
  exact ⟨e, by rw [h]⟩

/-- What is attached to an event of `XCHG`, the end of the operation too, records nothing (R117). -/
theorem xchgEvent_trace_bxEvent (k : Fin 33) (s : State) :
    (xchgEvent k s).trace = (bxEvent k.val s).trace := by
  unfold xchgEvent
  split <;> rfl

/-- Loading `TXB` before the byte and storing `ACC` after it record nothing (R126). -/
theorem byteEvent_trace_bxEvent (j k : Nat) (s : State) :
    ∃ u, u.trace = s.trace ∧ (byteEvent j k s).trace = (bxEvent k u).trace := by
  by_cases h0 : k = 0
  · subst h0
    exact ⟨loadByte j s, rfl, rfl⟩
  · by_cases h32 : k = 32
    · subst h32
      exact ⟨s, rfl, rfl⟩
    · exact ⟨s, rfl, by rw [byteEvent_middle j k s h0 h32]⟩

theorem byteEvent_trace (j k : Nat) (s : State) :
    ∃ e, (byteEvent j k s).trace = s.trace ++ [e] := by
  obtain ⟨u, hu, hb⟩ := byteEvent_trace_bxEvent j k s
  rw [hb, ← hu]
  exact bxEvent_trace k u

@[simp] theorem storeResult_trace (s : State) : (storeResult s).trace = s.trace := by
  rw [storeResult_eq]

@[simp] theorem endInit_trace (s : State) : (endInit s).trace = s.trace := by simp [endInit]

@[simp] theorem afterInitSession_trace (o : Fin 4) (s : State) :
    (afterInitSession o s).trace = s.trace := by
  unfold afterInitSession
  split
  · exact openSession_trace ..
  · exact openSession_trace ..
  · exact moveTo_trace ..
  · exact endInit_trace s

/-- The end of a session records nothing of its own, whatever operation it belongs to. -/
@[simp] theorem endSession_trace (o : Fin 4) (s : State) : (endSession o s).trace = s.trace := by
  unfold endSession
  split
  · exact afterInitSession_trace o s
  · exact storeResult_trace s
  · exact finishOp_trace s

/-- Attention low, an event of a byte, or attention high (R126). -/
theorem sessionEvent_trace (o : Fin 4) (p : Nat) (s : State) :
    ∃ e, (sessionEvent o p s).trace = s.trace ++ [e] := by
  unfold sessionEvent
  split
  · exact ⟨.write .att 0#1, rfl⟩
  · split
    · exact byteEvent_trace _ _ s
    · exact ⟨.write .att 1#1, by rw [endSession_trace, lineWrite_trace]⟩

/-! ### The micro-step -/

theorem microStep_idle {s : State} (h : s.pos = .idle) : microStep s = s := by simp [microStep, h]

/-- A micro-step away from `IDLE` is one line event (R9, R25). -/
theorem microStep_trace {s : State} (h : s.pos ≠ .idle) :
    ∃ e, (microStep s).trace = s.trace ++ [e] := by
  cases hp : s.pos with
  | idle => exact absurd hp h
  | bxs k =>
    simp only [microStep, hp, xchgEvent_trace_bxEvent]
    exact bxEvent_trace k.val s
  | ses o p =>
    simp only [microStep, hp]
    exact sessionEvent_trace o p s
  | settle => exact ⟨.waitSettle, by simp [microStep, hp, settleEvent]⟩

/-! ### The step, by the turn at the head of the list -/

theorem step_of_turns_nil {s : State} (h : s.turns = []) : step s = .next (microStep s) := by
  simp only [step, h]

theorem step_of_turns_cons {s : State} {t : Turn} {rest : List Turn} (h : s.turns = t :: rest) :
    step s = takeTurn t s { s with turns := rest } := by
  simp only [step, h]

/-- While `BUSY` = 1 a wait is one micro-step and stays at the head of the list (R85). -/
theorem takeTurn_wait_busy {s0 s : State} (h : s.busy = 1#1) :
    takeTurn .wait s0 s = .next (microStep s0) := by simp [takeTurn, h]

/-- A wait ends when `BUSY` = 0 (R85). -/
theorem takeTurn_wait_idle {s0 s : State} (h : s.busy = 0#1) : takeTurn .wait s0 s = .next s := by
  simp [takeTurn, h]

/-- A run that is over stays as it is (R213, R222). -/
theorem step_of_runOver {s : State} (h : runOver s = true) : step s = .next s := by
  obtain ⟨hturns, -, hpos⟩ := of_decide_eq_true h
  rw [step_of_turns_nil hturns, microStep_idle hpos]

/-! ### The obligations -/

/-- Settles O38: each position's event is one entry of the trace, and what is attached to it records
nothing. -/
theorem oneEventPerMicroStep : Obligations.OneEventPerMicroStep :=
  fun _ => ⟨microStep_trace, microStep_idle⟩

/-- Settles O7, by the turn at the head of the list. -/
theorem sequencerMovesBetweenHostMoves : Obligations.SequencerMovesBetweenHostMoves := by
  intro s rest
  refine ⟨step_of_turns_nil, step_of_runOver, step_of_turns_cons, fun hw hb => ?_, fun hw hb => ?_⟩
  · exact (step_of_turns_cons hw).trans (takeTurn_wait_busy hb)
  · exact (step_of_turns_cons hw).trans (takeTurn_wait_idle hb)

end Sys2Proof.Machine
end

section
/-!
PROOFS. The host's side of a step: the 45 instructions, the words of no row and the register writes are
ten kinds of host move, all of them ignored while `BUSY` = 1 (R45, R83, R85); and a step is a reset, a
read, such a move, or the sequencer's (R8, R196).
-/
namespace Sys2Proof.Machine

/-! ### The kinds of host move -/

/-- What a word or a register write makes the block do while it is idle (R85). -/
inductive HostMove where
  /-- a `CTRL` word that starts nothing (R83) -/
  | nothing
  | xchg (sel : BitVec 3)
  | session (sel : BitVec 3)
  | catalog (e : Fin 6)
  | init (sel : BitVec 3)
  | poll (sel : BitVec 3)
  | decode (sel : BitVec 3)
  /-- nine bytes sent as a Command Frame (log 1) -/
  | frame (bs : Vector Byte 9)
  /-- bytes put into `RF` from index `j` on, and decoded (log 1) -/
  | field (j : Nat) (bs : List Byte)
  /-- a write of a register other than `CTRL` -/
  | store (r : HReg) (v : Byte)

/-- The move made in a state; an idle block takes it, a busy one ignores it (R45). -/
def HostMove.make (s : State) : HostMove → State
  | .nothing => s
  | .xchg sel => whenIdle s (startXchg sel s)
  | .session sel => whenIdle s (startSession sel s)
  | .catalog e => whenIdle s (startCatalogSession e s)
  | .init sel => whenIdle s (startInit sel s)
  | .poll sel => whenIdle s (openSession 0 (catalogEntry s.params.catalogue 3) (beginOp 4#3 sel s))
  | .decode sel => whenIdle s (decodeNow sel s)
  | .frame bs => presentFrame bs s
  | .field j bs => presentField j bs s
  | .store r v => hostWrite r v s

/-- The bytes of a button mask as a field of `RF`, byte 3 first (R55, R76). -/
def maskMove (m : BitVec 16) : HostMove := .field 3 [m.extractLsb' 0 8, m.extractLsb' 8 8]

/-- The host move an instruction is (R80 to R83, R85). -/
def instrMove : Instr → HostMove
  | .xchg sel => .xchg sel
  | .session sel => .session sel
  | .init sel => .init sel
  | .poll sel => .poll sel
  | .decode sel => .decode sel
  | .csessionEnterConfig => .catalog 0
  | .csessionSetMode => .catalog 1
  | .csessionExitConfig => .catalog 2
  | .csessionReadData => .catalog 3
  | .csessionMotorEnable => .catalog 4
  | .csessionGetStatus => .catalog 5
  | .reservedOp6 _ | .reservedOp7 _ | .reservedBit6 _ | .reservedSel6 | .reservedSel7 | .nopStart0 _ =>
      .nothing
  | .frameEnterConfig => .frame frameEnterConfigBytes
  | .frameSetMode => .frame frameSetModeBytes
  | .frameExitConfig => .frame frameExitConfigBytes
  | .frameReadData => .frame frameReadDataBytes
  | .frameMotorEnable => .frame frameMotorEnableBytes
  | .frameGetStatus => .frame frameGetStatusBytes
  | .modeDigital => .field 1 [Config.modeDigital]
  | .modeAnalog => .field 1 [Config.modeAnalog]
  | .buttonSelect m | .buttonL3 m | .buttonR3 m | .buttonStart m | .buttonUp m | .buttonRight m
  | .buttonDown m | .buttonLeft m | .buttonL2 m | .buttonR2 m | .buttonL1 m | .buttonR1 m
  | .buttonTriangle m | .buttonCircle m | .buttonCross m | .buttonSquare m => maskMove m
  | .axisRightX v => .field 5 [v]
  | .axisRightY v => .field 6 [v]
  | .axisLeftX v => .field 7 [v]
  | .axisLeftY v => .field 8 [v]

/-- The host move a word in its format is, a row of the table or not (log 1). -/
def itemMove : Item → HostMove
  | .ctrl b => instrMove (decodeCtrl b)
  | .frame bs => .frame bs
  | .mode b => .field 1 [b]
  | .mask _ m => maskMove m
  | .axis a v => .field (5 + a.val) [v]

theorem exec_eq_make (i : Instr) (s : State) : exec i s = .next ((instrMove i).make s) := by
  cases i <;> rfl

theorem make_busy {s : State} (m : HostMove) (h : s.busy = 1#1) : m.make s = s := by
  cases m with
  | nothing => rfl
  | xchg | session | catalog | init | poll | decode | frame | field | store =>
    exact whenIdle_busy s _ h

/-! ### Words -/

theorem instrMove_buttonRow (k : Fin 16) (m : BitVec 16) : instrMove (buttonRow k m) = maskMove m := by
  unfold buttonRow
  split <;> rfl

theorem instrMove_axisRow (a : Fin 4) (v : Byte) :
    instrMove (axisRow a v) = .field (5 + a.val) [v] := by
  match a with
  | 0 | 1 | 2 | 3 => rfl

theorem instrMove_decodeFrameWord {bs : Vector Byte 9} {i : Instr} (h : decodeFrameWord bs = .ok i) :
    instrMove i = .frame bs := by
  unfold decodeFrameWord at h
  split_ifs at h with h0 h1 h2 h3 h4 h5 <;> cases h <;> subst bs <;> rfl

theorem instrMove_decodeMode {b : Byte} {i : Instr} (h : decodeMode b = .ok i) :
    instrMove i = .field 1 [b] := by
  unfold decodeMode at h
  split_ifs at h with h0 h1 <;> cases h <;> subst b <;> rfl

theorem instrMove_decodeMask {k : Fin 16} {m : BitVec 16} {i : Instr} (h : decodeMask k m = .ok i) :
    instrMove i = maskMove m := by
  unfold decodeMask at h
  split_ifs at h
  cases h
  exact instrMove_buttonRow k m

/-- A word that is a row moves as its instruction does. -/
theorem instrMove_decodeItem {it : Item} {i : Instr} (h : decodeItem it = .ok i) :
    instrMove i = itemMove it := by
  cases it with
  | ctrl b => cases h; rfl
  | frame bs => exact instrMove_decodeFrameWord h
  | mode b => exact instrMove_decodeMode h
  | mask k m => exact instrMove_decodeMask h
  | axis a v => cases h; exact instrMove_axisRow a v

/-- A word that is no row moves by its format (R73, R75, R76). -/
theorem presentOther_eq_make {it : Item} {e : DecodeError} (s : State) (h : decodeItem it = .error e) :
    presentOther it s = (itemMove it).make s := by
  cases it with
  | ctrl b => cases h
  | frame | mode | mask | axis => rfl

theorem presentWord_of_ok {it : Item} {i : Instr} (s : State) (h : decodeItem it = .ok i) :
    presentWord it s = exec i s := by simp only [presentWord, h]

theorem presentWord_of_error {it : Item} {e : DecodeError} (s : State) (h : decodeItem it = .error e) :
    presentWord it s = .next (presentOther it s) := by simp only [presentWord, h]

theorem presentWord_eq_make (it : Item) (s : State) :
    presentWord it s = .next ((itemMove it).make s) := by
  cases h : decodeItem it with
  | ok i => rw [presentWord_of_ok s h, exec_eq_make, instrMove_decodeItem h]
  | error e => rw [presentWord_of_error s h, presentOther_eq_make s h]

/-! ### Turns -/

/-- The host move a turn is, where it is a write or a presented word. -/
def turnMove : Turn → Option HostMove
  | .write .ctrl v => some (itemMove (.ctrl v))
  | .write r v => some (.store r v)
  | .present it => some (itemMove it)
  | .reset | .read _ | .tick | .wait | .intruder _ _ => none

/-- A write of any register but `CTRL` is stored as a write, not decoded (R27). -/
theorem takeTurn_write {r : HReg} (hr : r ≠ .ctrl) (v : Byte) (s0 s : State) :
    takeTurn (.write r v) s0 s = .next (hostWrite r v s) := by
  cases r with
  | ctrl => exact absurd rfl hr
  | status | txd | rxd | cflen | rflen | result | pressed | axis | lines | cf | rf => rfl

theorem turnMove_write {r : HReg} (hr : r ≠ .ctrl) (v : Byte) :
    turnMove (.write r v) = some (.store r v) := by
  cases r with
  | ctrl => exact absurd rfl hr
  | status | txd | rxd | cflen | rflen | result | pressed | axis | lines | cf | rf => rfl

theorem takeTurn_of_turnMove {t : Turn} {m : HostMove} (s0 s : State) (h : turnMove t = some m) :
    takeTurn t s0 s = .next (m.make s) := by
  cases t with
  | write r v =>
    by_cases hr : r = .ctrl
    · subst hr
      cases h
      exact presentWord_eq_make (.ctrl v) s
    · rw [turnMove_write hr] at h
      cases h
      exact takeTurn_write hr v s0 s
  | present it =>
    cases h
    exact presentWord_eq_make it s
  | reset | read | tick | wait | intruder => cases h

/-- Everything a step that answers can do. -/
inductive StepTo (s : State) : State → Prop
  | reset (rest : List Turn) (h : s.turns = .reset :: rest) :
      StepTo s (applyReset { s with turns := rest })
  | read (r : HReg) (rest : List Turn) (h : s.turns = .read r :: rest) :
      StepTo s (hostRead r { s with turns := rest })
  | move (turn : Turn) (rest : List Turn) (m : HostMove) (h : s.turns = turn :: rest)
      (hm : turnMove turn = some m) : StepTo s (m.make { s with turns := rest })
  /-- the sequencer moves, whatever turns are left -/
  | sequencer (turns : List Turn) : StepTo s (microStep { s with turns := turns })
  /-- a wait for `BUSY` = 0 is over -/
  | waitOver (rest : List Turn) : StepTo s { s with turns := rest }

theorem stepTo_of_step {s t : State} (h : step s = .next t) : StepTo s t := by
  cases hturns : s.turns with
  | nil =>
    rw [step_of_turns_nil hturns] at h
    cases h
    exact .sequencer s.turns
  | cons turn rest =>
    rw [step_of_turns_cons hturns] at h
    cases hm : turnMove turn with
    | some m =>
      rw [takeTurn_of_turnMove _ _ hm] at h
      cases h
      exact .move turn rest m hturns hm
    | none =>
      cases turn with
      | reset => cases h; exact .reset rest hturns
      | read r => cases h; exact .read r rest hturns
      | tick => cases h; exact .sequencer rest
      | wait =>
        by_cases hb : s.busy = 1#1
        · rw [takeTurn_wait_busy (s := { s with turns := rest }) hb] at h
          cases h
          exact .sequencer s.turns
        · cases h
          rw [if_neg hb]
          exact .waitOver rest
      | intruder l v => cases h
      | write r v =>
        by_cases hr : r = .ctrl
        · subst hr; cases hm
        · rw [turnMove_write hr] at hm; cases hm
      | present it => cases hm

end Sys2Proof.Machine
end

section
/-!
PROOFS. The host's registers: what a write stores and what a read returns (R27 to R38, R45), that a busy
block ignores the host (R45, R83), that a step runs the instruction it decodes (R27, R196), and the
Button Set (R76, R78).
-/
namespace Sys2Proof.Machine

/-! ### Moves -/

/-- A step whose turn is a host move makes it. -/
theorem step_of_turnMove {s : State} {turn : Turn} {rest : List Turn} {m : HostMove}
    (h : s.turns = turn :: rest) (hm : turnMove turn = some m) :
    step s = .next (m.make { s with turns := rest }) :=
  (step_of_turns_cons h).trans (takeTurn_of_turnMove s _ hm)

theorem exists_turnMove_write (r : HReg) (v : Byte) : ∃ m, turnMove (.write r v) = some m := by
  by_cases hr : r = .ctrl
  · subst hr; exact ⟨_, rfl⟩
  · exact ⟨_, turnMove_write hr v⟩

/-- While `BUSY` = 1 a step on a host move only takes the turn off the list (R45). -/
theorem step_of_turnMove_busy {s : State} {turn : Turn} {rest : List Turn} {m : HostMove}
    (hb : s.busy = 1#1) (h : s.turns = turn :: rest) (hm : turnMove turn = some m) :
    step s = .next { s with turns := rest } := by
  rw [step_of_turnMove h hm, make_busy (s := { s with turns := rest }) m hb]

/-- A step on a write of a register but `CTRL`. -/
theorem step_of_write {s t : State} {r : HReg} {v : Byte} {rest : List Turn}
    (h : s.turns = .write r v :: rest) (hr : r ≠ .ctrl)
    (ht : hostWrite r v { s with turns := rest } = t) : step s = .next t :=
  (step_of_turnMove h (turnMove_write hr v)).trans (congrArg _ ht)

/-! ### What a write stores (R29 to R34) -/

section
variable {s : State} (v : Byte)

theorem hostWrite_txd (hb : s.busy = 0#1) : hostWrite .txd v s = { s with txd := v } :=
  whenIdle_idle s _ hb

theorem hostWrite_cflen (hb : s.busy = 0#1) :
    hostWrite .cflen v s = { s with cflen := v.setWidth 5 } := whenIdle_idle s _ hb

theorem hostWrite_rflen (hb : s.busy = 0#1) (hv : v.toNat ≤ 16) :
    hostWrite .rflen v s = { s with rflen := v.setWidth 5 } :=
  (whenIdle_idle s _ hb).trans (if_pos hv)

theorem hostWrite_rflen_refused (hv : 16 < v.toNat) : hostWrite .rflen v s = s := by
  have hv' : ¬ v.toNat ≤ Config.lmax := Nat.not_le.mpr hv
  simp only [hostWrite, whenIdle, if_neg hv', ite_self]

theorem hostWrite_cf (j : Fin 16) (hb : s.busy = 0#1) :
    hostWrite (.cf j) v s = { s with cf := s.cf.set j v } := whenIdle_idle s _ hb

theorem hostWrite_rf (j : Fin 16) (hb : s.busy = 0#1) :
    hostWrite (.rf j) v s = { s with rf := s.rf.set j v } := whenIdle_idle s _ hb

/-- The registers a host write cannot change (R28; log 7). -/
theorem hostWrite_readOnly {r : HReg}
    (hr : r ∈ [.status, .rxd, .result, .pressed, .axis 0, .axis 1, .axis 2, .axis 3, .lines]) :
    hostWrite r v s = s := by
  simp only [List.mem_cons, List.not_mem_nil, or_false] at hr
  rcases hr with rfl | rfl | rfl | rfl | rfl | rfl | rfl | rfl | rfl <;> exact ite_self s

end

/-- A buffer after a write of one of its bytes. -/
theorem set_getElem_fin (buffer : Vector Byte 16) (j k : Fin 16) (v : Byte) :
    (buffer.set j v)[k] = if k = j then v else buffer[k] := by
  simp only [Fin.getElem_fin, Vector.getElem_set, Fin.ext_iff, eq_comm]

/-! ### What a read returns (R27 to R38) -/

theorem hostRead_regValue {r : HReg} {s : State} (h : ¬(resultReg r ∧ s.busy = 1#1)) :
    hostRead r s = { s with hostGot := regValue r s } := if_neg h

theorem hostRead_free {r : HReg} {s : State} (h : resultReg r ∧ s.busy = 1#1) :
    hostRead r s = { s with hostGot := freeRead (hregWidth r) s, draws := s.draws + 1 } := if_pos h

/-- Three bits with zeros above them, as `STATUS` and `LINES` hold them. -/
theorem threeBits_toNat (a b c : Bit) :
    ((0#5 ++ a ++ b ++ c : BitVec 8).setWidth 16).toNat = c.toNat + 2 * b.toNat + 4 * a.toNat := by
  revert a b c
  decide

theorem oneBit_toNat (a : Bit) : ((0#7 ++ a : BitVec 8).setWidth 16).toNat = a.toNat := by
  revert a
  decide

/-- A narrower register widened with zeros keeps its value. -/
theorem widened_toNat {w : Nat} (x : BitVec w) (h : w ≤ 16) : (x.setWidth 16).toNat = x.toNat :=
  BitVec.toNat_setWidth_of_le h

/-- The value of a register as a number, its bits named (R27 to R38). -/
theorem regValue_toNat (r : HReg) (s : State) :
    (regValue r s).toNat =
      match r with
      | .ctrl => 0
      | .status => s.busy.toNat + 2 * s.done.toNat + 4 * s.cfgFail.toNat
      | .txd => s.txd.toNat
      | .rxd => s.rxd.toNat
      | .cflen => s.cflen.toNat
      | .rflen => s.rflen.toNat
      | .result => s.analog.toNat
      | .pressed => s.pressed.toNat
      | .axis a => s.axis[a].toNat
      | .lines => s.att.toNat + 2 * s.clk.toNat + 4 * s.cmd.toNat
      | .cf j => s.cf[j].toNat
      | .rf j => s.rf[j].toNat := by
  cases r with
  | ctrl | pressed => rfl
  | status => exact threeBits_toNat s.cfgFail s.done s.busy
  | lines => exact threeBits_toNat s.cmd s.clk s.att
  | result => exact oneBit_toNat s.analog
  | txd | rxd | cflen | rflen | axis | cf | rf => exact widened_toNat _ (by decide)

/-- The reads that return the register: of an idle block, and of no result register (R45). -/
theorem not_freeRead {r : HReg} {s : State}
    (h : s.busy = 0#1 ∨ r ∈ [.ctrl, .status, .txd, .cflen, .lines] ∨ ∃ j, r = .cf j) :
    ¬(resultReg r ∧ s.busy = 1#1) := by
  rintro ⟨hr, hb⟩
  rcases h with hidle | hmem | ⟨j, rfl⟩
  · rw [hb] at hidle
    cases hidle
  · simp only [List.mem_cons, List.not_mem_nil, or_false] at hmem
    rcases hmem with rfl | rfl | rfl | rfl | rfl <;> cases hr
  · cases hr

/-! ### The Button Set (R76, R78) -/

theorem buttonAt_injective : Function.Injective buttonAt := by
  unfold Function.Injective
  decide

theorem buttonSet_nodup (p : BitVec 16) : (buttonSet p).Nodup :=
  ((List.nodup_finRange 16).filter _).map buttonAt_injective

theorem buttonAt_mem_buttonSet (p : BitVec 16) (k : Fin 16) :
    buttonAt k ∈ buttonSet p ↔ p.getLsbD k.val = true := by
  rw [buttonSet, List.mem_map_of_injective buttonAt_injective, List.mem_filter]
  exact and_iff_right (List.mem_finRange k)

/-! ### The obligations -/

/-- Settles O11: every host move is one of the ten kinds, and a busy block ignores each. -/
theorem busyBlockIgnoresTheHost : Obligations.BusyBlockIgnoresTheHost := by
  intro s hb
  refine ⟨fun i => ?_, fun r v rest h => ?_, fun it rest h => ?_⟩
  · rw [exec_eq_make, make_busy _ hb]
  · obtain ⟨m, hm⟩ := exists_turnMove_write r v
    exact step_of_turnMove_busy hb h hm
  · exact step_of_turnMove_busy hb h rfl

/-- Settles O33: `buttonAt` is injective, so the set inherits both claims from the filtered list of
bit numbers. -/
theorem buttonSetNamesTheClearBits : Obligations.ButtonSetNamesTheClearBits := by
  intro p
  refine ⟨buttonSet_nodup p, fun b k hbk => ?_⟩
  obtain ⟨i, rfl, rfl⟩ : ∃ i : Fin 16, buttonAt i = b ∧ i.val = k := by
    simp only [List.mem_cons, Prod.mk.injEq, List.not_mem_nil, or_false] at hbk
    rcases hbk with ⟨rfl, rfl⟩ | ⟨rfl, rfl⟩ | ⟨rfl, rfl⟩ | ⟨rfl, rfl⟩ | ⟨rfl, rfl⟩ | ⟨rfl, rfl⟩ |
      ⟨rfl, rfl⟩ | ⟨rfl, rfl⟩ | ⟨rfl, rfl⟩ | ⟨rfl, rfl⟩ | ⟨rfl, rfl⟩ | ⟨rfl, rfl⟩ | ⟨rfl, rfl⟩ |
      ⟨rfl, rfl⟩ | ⟨rfl, rfl⟩ | ⟨rfl, rfl⟩ <;> exact ⟨⟨_, by decide⟩, rfl, rfl⟩
  exact buttonAt_mem_buttonSet p i

/-- Settles O5: decoding the bytes of a word is decoding the word, which is what a step does. -/
theorem stepRunsTheDecodedInstruction : Obligations.StepRunsTheDecodedInstruction := by
  intro s i rest
  refine ⟨fun it h hi => ?_, fun v h hi => ?_, fun it e h he => ?_⟩
  · exact (step_of_turns_cons h).trans (presentWord_of_ok _ (decode_bytes it ▸ hi))
  · exact (step_of_turns_cons h).trans (presentWord_of_ok (it := .ctrl v) _ hi)
  · exact (step_of_turns_cons h).trans (presentWord_of_error _ (decode_bytes it ▸ he))

/-- Settles O12, register by register. -/
theorem hostWritesStore : Obligations.HostWritesStore := by
  intro s v rest hb
  refine ⟨fun h => ?_, fun h => ?_, fun h hv => ?_, fun h hv => ?_, fun j h => ⟨s.cf.set j v, ?_, ?_⟩,
    fun j h => ⟨s.rf.set j v, ?_, ?_⟩⟩
  · exact step_of_write h nofun (hostWrite_txd v hb)
  · have hmod : BitVec.ofNat 5 (v.toNat % 32) = v.setWidth 5 := by bv_omega
    rw [hmod]
    exact step_of_write h nofun (hostWrite_cflen v hb)
  · exact step_of_write h nofun (hostWrite_rflen v hb hv)
  · exact step_of_write h nofun (hostWrite_rflen_refused v hv)
  · exact step_of_write h nofun (hostWrite_cf v j hb)
  · exact fun k => set_getElem_fin s.cf j k v
  · exact step_of_write h nofun (hostWrite_rf v j hb)
  · exact fun k => set_getElem_fin s.rf j k v

/-- Settles O13: a read-only register is none that `hostWrite` stores. -/
theorem readOnlyRegistersIgnoreWrites : Obligations.ReadOnlyRegistersIgnoreWrites := by
  intro s r v rest h hr
  have hctrl : r ≠ .ctrl := by
    rintro rfl
    exact absurd hr (by decide)
  exact step_of_write h hctrl (hostWrite_readOnly v hr)

/-- Settles O14: a read answers the register's value, or a free one where the hypothesis excludes it. -/
theorem hostReadsReturnTheRegister : Obligations.HostReadsReturnTheRegister := by
  intro s r rest h
  have hstep : step s = .next (hostRead r { s with turns := rest }) := step_of_turns_cons h
  by_cases hfree : resultReg r ∧ s.busy = 1#1
  · rw [hostRead_free (s := { s with turns := rest }) hfree] at hstep
    exact ⟨_, _, hstep, fun hread => absurd hfree (not_freeRead hread)⟩
  · rw [hostRead_regValue (s := { s with turns := rest }) hfree] at hstep
    exact ⟨_, _, hstep, fun _ => ⟨rfl, regValue_toNat r { s with turns := rest }⟩⟩

end Sys2Proof.Machine
end

section
/-!
PROOFS. What a micro-step can be, position by position (R25, R111, R126, R140, R143), what the end of a
session can be (R131, R140, R156), and what a host move can make of an idle block (R85); what each of
them writes and leaves is read off there.
-/
namespace Sys2Proof.Machine

/-! ### The micro-step at each position -/

/-- An event of `XCHG` before its last (R117). -/
theorem microStep_exchange {k : Nat} {s : State} (hk : k < 32) (h : s.pos = .bxs ⟨k, by omega⟩) :
    microStep s = moveTo (.bxs ⟨k + 1, by omega⟩) (bxEvent k s) := by
  have hk' : k + 1 < 33 := by omega
  simp only [microStep, h, xchgEvent, dif_pos hk']

/-- The last event of `XCHG` (R117). -/
theorem microStep_exchangeEnd {s : State} (h : s.pos = .bxs 32) :
    microStep s = finishOp { bxEvent 32 s with rxd := (bxEvent 32 s).acc } := by
  simp only [microStep, h]
  rfl

theorem microStep_attentionLow {o : Fin 4} {s : State} (h : s.pos = .ses o 0) :
    microStep s = moveTo (.ses o 1) (lineWrite .att 0#1 { s with rflen := 0#5 }) := by
  simp only [microStep, h, sessionEvent, if_true]

theorem microStep_attentionHigh {o : Fin 4} {p : Nat} {s : State} (h : s.pos = .ses o p)
    (hp : 33 * s.fr.length < p) : microStep s = endSession o (lineWrite .att 1#1 s) := by
  have h0 : p ≠ 0 := by omega
  simp only [microStep, h, sessionEvent, if_neg h0, if_neg (Nat.not_le.mpr hp)]

theorem microStep_settle {s : State} (h : s.pos = .settle) : microStep s = settleEvent s := by
  simp only [microStep, h]

/-- A position inside the bytes of a frame is event `k` of byte `j`. -/
theorem exists_byte_event {n p : Nat} (h0 : p ≠ 0) (hp : p ≤ 33 * n) :
    ∃ j k, j < n ∧ k < 33 ∧ p = 33 * j + 1 + k :=
  ⟨(p - 1) / 33, (p - 1) % 33, by omega, Nat.mod_lt _ (by omega), by omega⟩

/-- Everything a micro-step can be. -/
inductive MicroStepTo (s : State) : State → Prop
  | idle (h : s.pos = .idle) : MicroStepTo s s
  | exchange (k : Nat) (hk : k < 32) (h : s.pos = .bxs ⟨k, by omega⟩) :
      MicroStepTo s (moveTo (.bxs ⟨k + 1, by omega⟩) (bxEvent k s))
  | exchangeEnd (h : s.pos = .bxs 32) :
      MicroStepTo s (finishOp { bxEvent 32 s with rxd := (bxEvent 32 s).acc })
  | attentionLow (o : Fin 4) (h : s.pos = .ses o 0) :
      MicroStepTo s (moveTo (.ses o 1) (lineWrite .att 0#1 { s with rflen := 0#5 }))
  | byte (o : Fin 4) (j k : Nat) (hj : j < s.fr.length) (hk : k < 33)
      (h : s.pos = .ses o (33 * j + 1 + k)) :
      MicroStepTo s (moveTo (.ses o (33 * j + 1 + (k + 1))) (byteEvent j k s))
  | attentionHigh (o : Fin 4) (p : Nat) (h : s.pos = .ses o p) (hp : 33 * s.fr.length < p) :
      MicroStepTo s (endSession o (lineWrite .att 1#1 s))
  | settle (h : s.pos = .settle) : MicroStepTo s (settleEvent s)

theorem microStepTo_microStep (s : State) : MicroStepTo s (microStep s) := by
  cases hpos : s.pos with
  | idle =>
    rw [microStep_idle hpos]
    exact .idle hpos
  | bxs k =>
    by_cases hk : k.val < 32
    · rw [microStep_exchange hk hpos]
      exact .exchange k.val hk hpos
    · obtain rfl : k = 32 := by omega
      rw [microStep_exchangeEnd hpos]
      exact .exchangeEnd hpos
  | ses o p =>
    by_cases h0 : p = 0
    · subst h0
      rw [microStep_attentionLow hpos]
      exact .attentionLow o hpos
    · by_cases hp : p ≤ 33 * s.fr.length
      · obtain ⟨j, k, hj, hk, rfl⟩ := exists_byte_event h0 hp
        rw [microStep_byte o j k s hj hk hpos]
        exact .byte o j k hj hk hpos
      · rw [microStep_attentionHigh hpos (Nat.not_le.mp hp)]
        exact .attentionHigh o p hpos (Nat.not_le.mp hp)
  | settle =>
    rw [microStep_settle hpos]
    exact .settle hpos

theorem microStepTo_of_eq {s t : State} (h : microStep s = t) : MicroStepTo s t :=
  h ▸ microStepTo_microStep s

/-! ### The end of a session -/

theorem endSession_init {o : Fin 4} {s : State} (h : s.opr = 3#3) :
    endSession o s = afterInitSession o s := by simp [endSession, h]

theorem endSession_poll {o : Fin 4} {s : State} (h : s.opr = 4#3) :
    endSession o s = finishOp (storeResult s) := by simp [endSession, h]

theorem endSession_other {o : Fin 4} {s : State} (h3 : s.opr ≠ 3#3) (h4 : s.opr ≠ 4#3) :
    endSession o s = finishOp s := by
  unfold endSession
  split
  next h => exact absurd (BitVec.eq_of_toNat_eq h) h3
  next h => exact absurd (BitVec.eq_of_toNat_eq h) h4
  next => rfl

/-- Everything the end of a session can be. -/
inductive SessionEndTo (s : State) : Fin 4 → State → Prop
  /-- `INIT` goes on with set-mode or with exit-config -/
  | opens (o o' : Fin 4) (e : Fin 6) (he : e.val = o'.val) (h : s.opr = 3#3) :
      SessionEndTo s o (openSession o' (catalogEntry s.params.catalogue e) s)
  | settles (h : s.opr = 3#3) : SessionEndTo s 2 (moveTo .settle s)
  | validates (h : s.opr = 3#3) : SessionEndTo s 3 (endInit s)
  | decodes (o : Fin 4) (h : s.opr = 4#3) : SessionEndTo s o (finishOp (storeResult s))
  | finishes (o : Fin 4) (h3 : s.opr ≠ 3#3) (h4 : s.opr ≠ 4#3) : SessionEndTo s o (finishOp s)

theorem sessionEndTo_of_eq {o : Fin 4} {s t : State} (h : endSession o s = t) : SessionEndTo s o t := by
  subst h
  by_cases h3 : s.opr = 3#3
  · rw [endSession_init h3]
    match o with
    | 0 => exact .opens 0 1 1 rfl h3
    | 1 => exact .opens 1 2 2 rfl h3
    | 2 => exact .settles h3
    | 3 => exact .validates h3
  · by_cases h4 : s.opr = 4#3
    · rw [endSession_poll h4]
      exact .decodes o h4
    · rw [endSession_other h3 h4]
      exact .finishes o h3 h4

/-! ### An event of a byte -/

/-- An event of a byte writes `CMD`, `CLK`, `ACC` and the record of events; the first loads `TXB` too,
the last stores `ACC` in `RF[j]` and `j + 1` in `RFLEN` (R126). -/
theorem byteEvent_frame (j k : Nat) (s : State) :
    ∃ cmd clk acc reads draws e, byteEvent j k s =
      { s with
        cmd := cmd, clk := clk, acc := acc, reads := reads, draws := draws
        trace := s.trace ++ [e]
        txb := if k = 0 then s.fr.getD j 0#8 else s.txb
        rf := if k = 32 then s.rf.setIfInBounds j acc else s.rf
        rflen := if k = 32 then BitVec.ofNat 5 (j + 1) else s.rflen } := by
  by_cases h0 : k = 0
  · subst h0
    obtain ⟨cmd, clk, acc, reads, draws, e, h⟩ := bxEvent_frame 0 (loadByte j s)
    exact ⟨cmd, clk, acc, reads, draws, e, h⟩
  · obtain ⟨cmd, clk, acc, reads, draws, e, h⟩ := bxEvent_frame k s
    refine ⟨cmd, clk, acc, reads, draws, e, ?_⟩
    by_cases h32 : k = 32
    · subst h32
      rw [byteEvent_last, h]
      rfl
    · rw [byteEvent_middle j k s h0 h32, h]
      simp only [if_neg h0, if_neg h32]

section
variable (j k : Nat) (s : State)

@[simp] theorem byteEvent_att : (byteEvent j k s).att = s.att := by
  obtain ⟨_, _, _, _, _, _, h⟩ := byteEvent_frame j k s; rw [h]
@[simp] theorem byteEvent_fr : (byteEvent j k s).fr = s.fr := by
  obtain ⟨_, _, _, _, _, _, h⟩ := byteEvent_frame j k s; rw [h]
@[simp] theorem byteEvent_rflen :
    (byteEvent j k s).rflen = if k = 32 then BitVec.ofNat 5 (j + 1) else s.rflen := by
  obtain ⟨_, _, _, _, _, _, h⟩ := byteEvent_frame j k s; rw [h]
@[simp] theorem byteEvent_analog : (byteEvent j k s).analog = s.analog := by
  obtain ⟨_, _, _, _, _, _, h⟩ := byteEvent_frame j k s; rw [h]
@[simp] theorem byteEvent_axis : (byteEvent j k s).axis = s.axis := by
  obtain ⟨_, _, _, _, _, _, h⟩ := byteEvent_frame j k s; rw [h]
@[simp] theorem byteEvent_pressed : (byteEvent j k s).pressed = s.pressed := by
  obtain ⟨_, _, _, _, _, _, h⟩ := byteEvent_frame j k s; rw [h]
@[simp] theorem byteEvent_opr : (byteEvent j k s).opr = s.opr := by
  obtain ⟨_, _, _, _, _, _, h⟩ := byteEvent_frame j k s; rw [h]
@[simp] theorem byteEvent_selr : (byteEvent j k s).selr = s.selr := by
  obtain ⟨_, _, _, _, _, _, h⟩ := byteEvent_frame j k s; rw [h]
@[simp] theorem byteEvent_busy : (byteEvent j k s).busy = s.busy := by
  obtain ⟨_, _, _, _, _, _, h⟩ := byteEvent_frame j k s; rw [h]
@[simp] theorem byteEvent_done : (byteEvent j k s).done = s.done := by
  obtain ⟨_, _, _, _, _, _, h⟩ := byteEvent_frame j k s; rw [h]
@[simp] theorem byteEvent_cfgFail : (byteEvent j k s).cfgFail = s.cfgFail := by
  obtain ⟨_, _, _, _, _, _, h⟩ := byteEvent_frame j k s; rw [h]
@[simp] theorem byteEvent_params : (byteEvent j k s).params = s.params := by
  obtain ⟨_, _, _, _, _, _, h⟩ := byteEvent_frame j k s; rw [h]

/-- `CLK` through a byte of a session is `CLK` through its exchange. -/
theorem byteEvent_clk {j k : Nat} {s : State} (h : s.clk = clkBefore k) :
    (byteEvent j k s).clk = clkBefore (k + 1) := by
  by_cases h0 : k = 0
  · subst h0
    exact bxEvent_clk 0 (loadByte j s) h
  · by_cases h32 : k = 32
    · subst h32
      exact bxEvent_clk 32 s h
    · rw [byteEvent_middle j k s h0 h32]
      exact bxEvent_clk k s h

end

/-! ### Decoding -/

section
variable (s : State)

@[simp] theorem storeResult_att : (storeResult s).att = s.att := by rw [storeResult_eq]
@[simp] theorem storeResult_clk : (storeResult s).clk = s.clk := by rw [storeResult_eq]
@[simp] theorem storeResult_fr : (storeResult s).fr = s.fr := by rw [storeResult_eq]
@[simp] theorem storeResult_rf : (storeResult s).rf = s.rf := by rw [storeResult_eq]
@[simp] theorem storeResult_rflen : (storeResult s).rflen = s.rflen := by rw [storeResult_eq]
@[simp] theorem storeResult_analog :
    (storeResult s).analog = (decodeFrame s.rflen.toNat s.rf).analog := by rw [storeResult_eq]
@[simp] theorem storeResult_axis :
    (storeResult s).axis = (decodeFrame s.rflen.toNat s.rf).axis := by rw [storeResult_eq]
@[simp] theorem storeResult_pressed :
    (storeResult s).pressed = (decodeFrame s.rflen.toNat s.rf).pressed := by rw [storeResult_eq]
@[simp] theorem storeResult_opr : (storeResult s).opr = s.opr := by rw [storeResult_eq]
@[simp] theorem storeResult_cfgFail : (storeResult s).cfgFail = s.cfgFail := by rw [storeResult_eq]
@[simp] theorem storeResult_params : (storeResult s).params = s.params := by rw [storeResult_eq]

end

/-! ### A host move on an idle block -/

/-- The operations a host move opens a session for, with the frame they send: the host's own, a
catalogue entry by `SEL`, or read-data (R131, R132, R156). -/
def OpensWith (c : Config.Catalogue) (op sel : BitVec 3) (frame : List Byte) : Prop :=
  op = 1#3 ∨ (op = 2#3 ∧ ∃ e : Fin 6, sel = BitVec.ofNat 3 e.val ∧ frame = catalogEntry c e) ∨
    (op = 4#3 ∧ frame = catalogEntry c 3)

/-- The host moves that decode: a `DECODE` and a field word (R166; log 1). -/
def HostMove.Decodes (m : HostMove) : Prop := (∃ sel, m = .decode sel) ∨ ∃ j bs, m = .field j bs

/-- Everything a host move can make of an idle block. -/
inductive IdleMoveTo (s : State) (m : HostMove) : State → Prop
  /-- registers are written, or nothing is -/
  | stores (txd : Byte) (cf : Vector Byte 16) (cflen : BitVec 5) (rf : Vector Byte 16) (rflen : BitVec 5)
      (h : rflen = s.rflen ∨ rflen.toNat ≤ 16) :
      IdleMoveTo s m { s with txd := txd, cf := cf, cflen := cflen, rf := rf, rflen := rflen }
  | exchanges (sel : BitVec 3) : IdleMoveTo s m (startXchg sel s)
  | opens (op sel : BitVec 3) (frame : List Byte) (cf : Vector Byte 16) (cflen : BitVec 5)
      (hlen : 8 ≤ frame.length ∧ frame.length ≤ 16) (hop : OpensWith s.params.catalogue op sel frame) :
      IdleMoveTo s m (openSession 0 frame (beginOp op sel { s with cf := cf, cflen := cflen }))
  | configures (sel : BitVec 3) (hm : m = .init sel) : IdleMoveTo s m (startInit sel s)
  | decodes (sel : BitVec 3) (rf : Vector Byte 16) (rflen : BitVec 5) (h : rflen.toNat ≤ 16)
      (hm : m.Decodes) :
      IdleMoveTo s m (finishOp (storeResult (beginOp 5#3 sel { s with rf := rf, rflen := rflen })))

theorem idleMoveTo_unchanged (s : State) (m : HostMove) : IdleMoveTo s m s :=
  .stores s.txd s.cf s.cflen s.rf s.rflen (.inl rfl)

theorem hostFrame_length {s : State} (h : sessionLegal s = true) :
    8 ≤ (hostFrame s).length ∧ (hostFrame s).length ≤ 16 := by
  have hlen : 8 ≤ s.cflen.toNat ∧ s.cflen.toNat ≤ 16 := of_decide_eq_true h
  simp only [hostFrame, List.length_take, Vector.length_toList]
  omega

/-- `SESSION` on the `CF` and `CFLEN` of the host or of a presented frame (R131, R83). -/
theorem idleMoveTo_startSession (s : State) (m : HostMove) (sel : BitVec 3) :
    IdleMoveTo s m (startSession sel s) := by
  unfold startSession
  split
  next h => exact .opens 1#3 sel (hostFrame s) s.cf s.cflen (hostFrame_length h) (.inl rfl)
  next => exact idleMoveTo_unchanged s m

/-- `DECODE` on an idle block (R166, U7). -/
theorem idleMoveTo_decodeNow (s : State) (sel : BitVec 3) :
    IdleMoveTo s (.decode sel) (decodeNow sel s) := by
  unfold decodeNow
  split
  next h => exact .decodes sel s.rf s.rflen (of_decide_eq_true h) (.inl ⟨sel, rfl⟩)
  next => exact idleMoveTo_unchanged s _

theorem idleMoveTo_presentFrame {s : State} (hb : s.busy = 0#1) (bs : Vector Byte 9) (m : HostMove) :
    IdleMoveTo s m (presentFrame bs s) := by
  rw [presentFrame_idle bs s hb]
  exact .opens 1#3 0#3 bs.toList _ _ (by simp) (.inl rfl)

theorem idleMoveTo_presentField {s : State} (hb : s.busy = 0#1) (j : Nat) (bs : List Byte) :
    IdleMoveTo s (.field j bs) (presentField j bs s) := by
  have h9 : decodeLegal { s with rf := putBytes s.rf j bs, rflen := 9#5 } = true := by
    simp [decodeLegal, Config.lmax]
  rw [presentField, whenIdle_idle s _ hb, decodeNow, if_pos h9]
  exact .decodes 0#3 _ _ (by decide) (.inr ⟨j, bs, rfl⟩)

theorem idleMoveTo_hostWrite {s : State} (hb : s.busy = 0#1) (r : HReg) (v : Byte) (m : HostMove) :
    IdleMoveTo s m (hostWrite r v s) := by
  unfold hostWrite
  rw [whenIdle_idle s _ hb]
  cases r with
  | txd => exact .stores v s.cf s.cflen s.rf s.rflen (.inl rfl)
  | cflen => exact .stores s.txd s.cf _ s.rf s.rflen (.inl rfl)
  | cf j => exact .stores s.txd _ s.cflen s.rf s.rflen (.inl rfl)
  | rf j => exact .stores s.txd s.cf s.cflen _ s.rflen (.inl rfl)
  | rflen =>
    by_cases hv : v.toNat ≤ 16
    · have hlen : (v.setWidth 5).toNat ≤ 16 := by
        rw [BitVec.toNat_setWidth]
        omega
      simp only [Config.lmax, if_pos hv]
      exact .stores s.txd s.cf s.cflen s.rf _ (.inr hlen)
    · simp only [Config.lmax, if_neg hv]
      exact idleMoveTo_unchanged s m
  | ctrl | status | rxd | result | pressed | axis | lines => exact idleMoveTo_unchanged s m

theorem idleMoveTo_whenIdle {s t : State} {m : HostMove} (hb : s.busy = 0#1) (h : IdleMoveTo s m t) :
    IdleMoveTo s m (whenIdle s t) := by
  rwa [whenIdle_idle s t hb]

theorem idleMoveTo_make {s : State} (hb : s.busy = 0#1) (m : HostMove) : IdleMoveTo s m (m.make s) := by
  cases m with
  | nothing => exact idleMoveTo_unchanged s _
  | xchg sel => exact idleMoveTo_whenIdle hb (.exchanges sel)
  | session sel => exact idleMoveTo_whenIdle hb (idleMoveTo_startSession s _ sel)
  | catalog e =>
    exact idleMoveTo_whenIdle hb (.opens 2#3 _ _ s.cf s.cflen (catalogEntry_length _ e)
      (.inr (.inl ⟨rfl, e, rfl, rfl⟩)))
  | init sel => exact idleMoveTo_whenIdle hb (.configures sel rfl)
  | poll sel =>
    exact idleMoveTo_whenIdle hb (.opens 4#3 sel _ s.cf s.cflen (catalogEntry_length _ 3)
      (.inr (.inr ⟨rfl, rfl⟩)))
  | decode sel => exact idleMoveTo_whenIdle hb (idleMoveTo_decodeNow s sel)
  | frame bs => exact idleMoveTo_presentFrame hb bs _
  | field j bs => exact idleMoveTo_presentField hb j bs
  | store r v => exact idleMoveTo_hostWrite hb r v _

/-- A host move is ignored, or made on an idle block (R45). -/
theorem make_cases {s t : State} {m : HostMove} (h : m.make s = t) :
    t = s ∨ (s.busy = 0#1 ∧ IdleMoveTo s m t) := by
  subst h
  by_cases hb : s.busy = 1#1
  · exact .inl (make_busy m hb)
  · have hb0 : s.busy = 0#1 := by bv_omega
    exact .inr ⟨hb0, idleMoveTo_make hb0 m⟩

end Sys2Proof.Machine
end

section
/-!
PROOFS. The invariant (R24 to R26, R63, R71, R125, R128): it holds at reset and every step keeps it. The
states it speaks of are of three kinds, idle, at the start of a session, and inside an operation, and each
kind has one lemma that says when the invariant holds there.
-/
namespace Sys2Proof.Machine

/-! ### No event under way -/

/-- What the invariant says of the lines and the results where no byte is being exchanged. -/
structure Quiet (s : State) : Prop where
  att : s.att = 1#1
  clk : s.clk = 1#1
  rflen : s.rflen.toNat ≤ 16
  axes : s.analog = 0#1 → s.axis = centeredAxes

/-- The invariant of an idle block. -/
theorem inv_of_idle {s : State} (hq : Quiet s) (hpos : s.pos = .idle) (hbusy : s.busy = 0#1) : Inv s where
  busy := by rw [hpos]; exact hbusy
  done := fun _ => hbusy
  att := by rw [hpos]; exact hq.att
  clk := by rw [hpos]; exact hq.clk
  pos := by rw [hpos]; rfl
  len := by rw [hpos]; rfl
  sel := by rw [hpos]; rfl
  frame := by rw [hpos]; exact nofun
  filled := by rw [hpos]; exact nofun
  rflen := hq.rflen
  config := fun _ hb => by rw [hbusy] at hb; cases hb
  axes := hq.axes

/-- Whose session `o` is and with which frame: a `SESSION`'s, a `CSESSION`'s, a `POLL`'s, or one of
`INIT`'s, which sends the catalogue's first entries in order (R131, R132, R140, R156). -/
def SessionOf (o : Fin 4) (s : State) : Prop :=
  (o = 0 ∧ OpensWith s.params.catalogue s.opr s.selr s.fr) ∨
    (s.opr = 3#3 ∧ s.cfgFail = 0#1 ∧ ∃ e : Fin 6, e.val = o.val ∧ s.fr = catalogEntry s.params.catalogue e)

theorem catalogSel_toNat (e : Fin 6) : (BitVec.ofNat 3 e.val).toNat = e.val := by
  rw [BitVec.toNat_ofNat]
  omega

/-- What the invariant says of the operation, at the start of a session that is one of those. -/
theorem sessionOf_legal {o : Fin 4} {s : State} (h : SessionOf o s) :
    posLegal s.opr s.fr.length (.ses o 0) = true ∧ selLegal s.opr s.selr (.ses o 0) = true ∧
      (∀ e, entryInFlight s.opr s.selr (.ses o 0) = some e → s.fr = catalogEntry s.params.catalogue e) ∧
      (s.opr = 3#3 → s.cfgFail = 0#1) := by
  rcases h with ⟨ho, hop | ⟨hop, e, hsel, hfr⟩ | ⟨hop, hfr⟩⟩ | ⟨hop, hcfg, e, he, hfr⟩
  · simp [posLegal, selLegal, entryInFlight, hop, ho]
  · have htoNat : s.selr.toNat = e.val := (congrArg BitVec.toNat hsel).trans (catalogSel_toNat e)
    have hlt : s.selr.toNat < 6 := htoNat ▸ e.isLt
    have heq : (⟨s.selr.toNat, hlt⟩ : Fin 6) = e := Fin.ext htoNat
    simp [posLegal, selLegal, entryInFlight, hop, ho, hlt, heq, hfr]
  · simp [posLegal, selLegal, entryInFlight, hop, ho, hfr]
  · have heq : (⟨o.val, by omega⟩ : Fin 6) = e := Fin.ext he.symm
    simp [posLegal, selLegal, entryInFlight, hop, heq, hfr, hcfg]

/-- The invariant at the start of a session. -/
theorem inv_of_opening {o : Fin 4} {s : State} (hq : Quiet s) (hpos : s.pos = .ses o 0)
    (hbusy : s.busy = 1#1) (hdone : s.done = 0#1) (hlen : 8 ≤ s.fr.length ∧ s.fr.length ≤ 16)
    (hs : SessionOf o s) : Inv s := by
  obtain ⟨hlegal, hsel, hframe, hcfg⟩ := sessionOf_legal hs
  exact {
    busy := by rw [hpos]; exact hbusy
    done := fun hd => by rw [hdone] at hd; cases hd
    att := by rw [hpos]; exact hq.att
    clk := by rw [hpos]; exact hq.clk
    pos := by rw [hpos]; exact hlegal
    len := by rw [hpos]; exact decide_eq_true hlen
    sel := by rw [hpos]; exact hsel
    frame := by rw [hpos]; exact hframe
    filled := by rw [hpos]; exact nofun
    rflen := hq.rflen
    config := fun hop _ => hcfg hop
    axes := hq.axes }

/-! ### What the invariant gives -/

section
variable {s : State} (h : Inv s)
include h

theorem quiet_of_inv (hpos : s.pos = .idle ∨ s.pos = .settle) : Quiet s where
  att := by rcases hpos with hpos | hpos <;> rw [h.att, hpos] <;> rfl
  clk := by rcases hpos with hpos | hpos <;> rw [h.clk, hpos] <;> rfl
  rflen := h.rflen
  axes := h.axes

/-- A block that is not busy is idle. -/
theorem pos_idle_of_inv (hb : s.busy = 0#1) : s.pos = .idle := by
  have hbusy := h.busy
  rw [hb] at hbusy
  cases hpos : s.pos with
  | idle => rfl
  | bxs | ses | settle => rw [hpos] at hbusy; cases hbusy

theorem busy_of_inv (hpos : s.pos ≠ .idle) : s.busy = 1#1 := by
  cases hp : s.pos with
  | idle => exact absurd hp hpos
  | bxs | ses | settle => rw [h.busy, hp]; rfl

theorem done_of_inv (hpos : s.pos ≠ .idle) : s.done = 0#1 := by
  have hbusy := busy_of_inv h hpos
  by_contra hdone
  have hidle := h.done (by bv_omega)
  rw [hbusy] at hidle
  cases hidle

end

/-! ### Inside an operation -/

/-- What no micro-step before the last of a session or of `XCHG` writes. -/
structure SameOperation (s t : State) : Prop where
  busy : t.busy = s.busy
  done : t.done = s.done
  fr : t.fr = s.fr
  opr : t.opr = s.opr
  selr : t.selr = s.selr
  params : t.params = s.params
  cfgFail : t.cfgFail = s.cfgFail
  analog : t.analog = s.analog
  axis : t.axis = s.axis

/-- The invariant after an event of a session but its last. -/
theorem inv_of_nextEvent {s t : State} {o : Fin 4} {p : Nat} (h : Inv s) (hsame : SameOperation s t)
    (hpos : s.pos = .ses o p) (hp : p ≤ 33 * s.fr.length) (htpos : t.pos = .ses o (p + 1))
    (hatt : t.att = 0#1) (hclk : t.clk = clkAt s.fr.length (.ses o (p + 1)))
    (hfilled : t.rflen.toNat = p / 33) : Inv t := by
  have hlegal := h.pos
  have hlen := h.len
  have hsel := h.sel
  have hframe := h.frame
  have hbusy := h.busy
  rw [hpos] at hlegal hlen hsel hframe hbusy
  have hn : 8 ≤ s.fr.length ∧ s.fr.length ≤ 16 := of_decide_eq_true hlen
  exact {
    busy := by rw [hsame.busy, htpos]; exact hbusy
    done := by rw [hsame.busy, hsame.done]; exact h.done
    att := by rw [htpos]; exact hatt
    clk := by rw [hsame.fr, htpos]; exact hclk
    pos := by
      rw [hsame.opr, hsame.fr, htpos]
      simp only [posLegal, Bool.and_eq_true, decide_eq_true_eq] at hlegal ⊢
      exact ⟨by omega, hlegal.2⟩
    len := by rw [hsame.fr, htpos]; exact hlen
    sel := by rw [hsame.opr, hsame.selr, htpos]; exact hsel
    frame := by rw [hsame.opr, hsame.selr, hsame.fr, hsame.params, htpos]; exact hframe
    filled := by
      rw [htpos]
      intro m hm
      cases hm
      exact hfilled
    rflen := by rw [hfilled]; omega
    config := by rw [hsame.opr, hsame.busy, hsame.cfgFail]; exact h.config
    axes := by rw [hsame.analog, hsame.axis]; exact h.axes }

/-- `CLK` at the position of event `k` of byte `j`. -/
theorem clkAt_byte {n j k : Nat} (o : Fin 4) (hj : j < n) (hk : k < 33) :
    clkAt n (.ses o (33 * j + 1 + k)) = clkBefore k := by
  have h : ¬(33 * j + 1 + k = 0 ∨ 33 * n < 33 * j + 1 + k) := by omega
  have hmod : (33 * j + 1 + k - 1) % 33 = k := by omega
  simp only [clkAt, if_neg h, hmod]

/-- `CLK` after event `k` of byte `j`: after the last it is high, whatever comes next. -/
theorem clkAt_byte_succ {n j k : Nat} (o : Fin 4) (hj : j < n) (hk : k < 33) :
    clkAt n (.ses o (33 * j + 1 + (k + 1))) = clkBefore (k + 1) := by
  by_cases h32 : k = 32
  · subst h32
    by_cases hlast : j + 1 < n
    · exact clkAt_byte (k := 0) o hlast (by omega)
    · have h : 33 * j + 1 + (32 + 1) = 0 ∨ 33 * n < 33 * j + 1 + (32 + 1) := by omega
      simp only [clkAt, if_pos h]
      rfl
  · exact clkAt_byte o hj (by omega)

/-- `RFLEN` counts the bytes whose last event has been (R63). -/
theorem rflen_byteEvent {s : State} {o : Fin 4} {j k : Nat} (h : Inv s) (hj : j < s.fr.length)
    (hk : k < 33) (hpos : s.pos = .ses o (33 * j + 1 + k)) :
    (byteEvent j k s).rflen.toNat = (33 * j + 1 + k) / 33 := by
  have hlen := h.len
  have hfilled := h.filled j
  rw [hpos] at hlen hfilled
  have hn : 8 ≤ s.fr.length ∧ s.fr.length ≤ 16 := of_decide_eq_true hlen
  rw [byteEvent_rflen]
  by_cases h32 : k = 32
  · rw [if_pos h32, BitVec.toNat_ofNat]
    omega
  · have hbytes : bytesIn s.fr.length (.ses o (33 * j + 1 + k)) = some j := by
      have h0 : 33 * j + 1 + k ≠ 0 := by omega
      simp only [bytesIn, if_neg h0, Option.some.injEq]
      omega
    rw [if_neg h32, hfilled hbytes]
    omega

/-- What the invariant gives of a session of `INIT`: its frame is the entry of its number (R140). -/
theorem inv_initSession {s : State} {o : Fin 4} {p : Nat} (h : Inv s) (hpos : s.pos = .ses o p)
    (hop : s.opr = 3#3) :
    s.cfgFail = 0#1 ∧ s.fr = catalogEntry s.params.catalogue ⟨o.val, by omega⟩ := by
  refine ⟨h.config hop (busy_of_inv h (by rw [hpos]; exact nofun)), h.frame _ ?_⟩
  simp [hpos, entryInFlight, hop]

theorem quiet_attentionHigh {s : State} {o : Fin 4} {p : Nat} (h : Inv s) (hpos : s.pos = .ses o p)
    (hp : 33 * s.fr.length < p) : Quiet (lineWrite .att 1#1 s) where
  att := rfl
  clk := by
    rw [lineWrite_att_clk, h.clk, hpos]
    exact if_pos (.inr hp)
  rflen := h.rflen
  axes := h.axes

theorem quiet_finishOp {s : State} (h : Quiet s) : Quiet (finishOp s) := ⟨h.att, h.clk, h.rflen, h.axes⟩

theorem quiet_raiseIf {s : State} (f : Option Fault) (h : Quiet s) : Quiet (raiseIf f s) :=
  ⟨by simp [h.att], by simp [h.clk], by simp [h.rflen], by simpa using h.axes⟩

/-- The decoder centres the axes where it does not say Analog (R158, R161). -/
theorem decodeFrame_axes (n : Nat) (r : Vector Byte 16) (h : (decodeFrame n r).analog = 0#1) :
    (decodeFrame n r).axis = centeredAxes := by
  unfold decodeFrame at h ⊢
  split
  next => rfl
  next hn =>
    rw [if_neg hn] at h
    have hflag : analogFlag r[1] = 0#1 := h
    exact if_neg (by rw [hflag]; decide)

theorem quiet_storeResult {s : State} (h : Quiet s) : Quiet (storeResult s) where
  att := by rw [storeResult_att]; exact h.att
  clk := by rw [storeResult_clk]; exact h.clk
  rflen := by rw [storeResult_rflen]; exact h.rflen
  axes := by rw [storeResult_analog, storeResult_axis]; exact decodeFrame_axes _ _

theorem inv_finishOp {s : State} (h : Quiet s) : Inv (finishOp s) :=
  inv_of_idle (quiet_finishOp h) rfl rfl

/-! ### A micro-step keeps the invariant -/

theorem inv_exchange {s : State} {k : Nat} (h : Inv s) (hk : k < 32) (hpos : s.pos = .bxs ⟨k, by omega⟩) :
    Inv (moveTo (.bxs ⟨k + 1, by omega⟩) (bxEvent k s)) := by
  have hclk := h.clk
  have hlegal := h.pos
  have hbusy := h.busy
  have hatt := h.att
  rw [hpos] at hclk hlegal hbusy hatt
  exact {
    busy := by rw [moveTo_busy, bxEvent_busy]; exact hbusy
    done := by simpa using h.done
    att := by rw [moveTo_att, bxEvent_att]; exact hatt
    clk := bxEvent_clk k s hclk
    pos := by rw [moveTo_opr, bxEvent_opr]; exact hlegal
    len := rfl
    sel := rfl
    frame := nofun
    filled := nofun
    rflen := by simpa using h.rflen
    config := by simpa using h.config
    axes := by simpa using h.axes }

theorem inv_exchangeEnd {s : State} (h : Inv s) (hpos : s.pos = .bxs 32) :
    Inv (finishOp { bxEvent 32 s with rxd := (bxEvent 32 s).acc }) := by
  have hclk := h.clk
  have hatt := h.att
  rw [hpos] at hclk hatt
  exact inv_finishOp ⟨(bxEvent_att 32 s).trans hatt, bxEvent_clk 32 s hclk, by simpa using h.rflen,
    by simpa using h.axes⟩

theorem inv_attentionLow {s : State} {o : Fin 4} (h : Inv s) (hpos : s.pos = .ses o 0) :
    Inv (moveTo (.ses o 1) (lineWrite .att 0#1 { s with rflen := 0#5 })) := by
  have hclk := h.clk
  have hlen := h.len
  rw [hpos] at hclk hlen
  have hn : 8 ≤ s.fr.length ∧ s.fr.length ≤ 16 := of_decide_eq_true hlen
  have hclk1 : clkAt s.fr.length (.ses o 1) = 1#1 := clkAt_byte (j := 0) (k := 0) o (by omega) (by omega)
  exact inv_of_nextEvent h ⟨rfl, rfl, rfl, rfl, rfl, rfl, rfl, rfl, rfl⟩ hpos (Nat.zero_le _) rfl rfl
    (hclk.trans hclk1.symm) rfl

theorem inv_byte {s : State} {o : Fin 4} {j k : Nat} (h : Inv s) (hj : j < s.fr.length) (hk : k < 33)
    (hpos : s.pos = .ses o (33 * j + 1 + k)) :
    Inv (moveTo (.ses o (33 * j + 1 + (k + 1))) (byteEvent j k s)) := by
  have hclk := h.clk
  have hatt := h.att
  rw [hpos] at hclk hatt
  rw [clkAt_byte o hj hk] at hclk
  have hlow : attAt (.ses o (33 * j + 1 + k)) = 0#1 := if_neg (by omega)
  have hsame : SameOperation s (moveTo (.ses o (33 * j + 1 + (k + 1))) (byteEvent j k s)) := by
    constructor <;> simp
  refine inv_of_nextEvent h hsame hpos (by omega) rfl ?_ ?_ (rflen_byteEvent h hj hk hpos)
  · rw [moveTo_att, byteEvent_att, hatt, hlow]
  · rw [moveTo_clk, byteEvent_clk hclk, ← clkAt_byte_succ o hj hk]
    rfl

/-- `INIT` goes from its third session to the settle wait (R140, R143). -/
theorem inv_settles {s : State} {p : Nat} (h : Inv s) (hpos : s.pos = .ses 2 p)
    (hp : 33 * s.fr.length < p) (hop : s.opr = 3#3) : Inv (moveTo .settle (lineWrite .att 1#1 s)) := by
  have hbusy : s.busy = 1#1 := busy_of_inv h (by rw [hpos]; exact nofun)
  have hq := quiet_attentionHigh h hpos hp
  have hlegal := h.pos
  have hlen := h.len
  have hfilled := h.filled s.fr.length
  rw [hpos] at hlegal hlen hfilled
  have hlast : p = 33 * s.fr.length + 1 := by
    simp only [posLegal, Bool.and_eq_true, decide_eq_true_eq] at hlegal
    omega
  have hall : s.rflen.toNat = s.fr.length := by
    refine hfilled ?_
    simp [bytesIn, hlast]
  obtain ⟨hcfg, hframe⟩ := inv_initSession h hpos hop
  exact {
    busy := hbusy
    done := h.done
    att := rfl
    clk := hq.clk
    pos := by simp [posLegal, hop]
    len := hlen
    sel := rfl
    frame := fun e he => by cases he; exact hframe
    filled := fun n hn => by cases hn; exact hall
    rflen := h.rflen
    config := fun _ _ => hcfg
    axes := h.axes }

theorem inv_attentionHigh {s : State} {o : Fin 4} {p : Nat} (h : Inv s) (hpos : s.pos = .ses o p)
    (hp : 33 * s.fr.length < p) : Inv (endSession o (lineWrite .att 1#1 s)) := by
  have hq := quiet_attentionHigh h hpos hp
  have hpos' : s.pos ≠ .idle := by rw [hpos]; exact nofun
  have hbusy := busy_of_inv h hpos'
  have hdone := done_of_inv h hpos'
  generalize ht : endSession o (lineWrite .att 1#1 s) = t
  cases sessionEndTo_of_eq ht with
  | opens _ o' e he hop =>
    obtain ⟨hcfg, -⟩ := inv_initSession h hpos hop
    exact inv_of_opening ⟨hq.att, hq.clk, hq.rflen, hq.axes⟩ rfl hbusy hdone
      (catalogEntry_length _ e) (.inr ⟨hop, hcfg, e, he, rfl⟩)
  | settles hop => exact inv_settles h hpos hp hop
  | validates => exact inv_finishOp (quiet_raiseIf _ hq)
  | decodes => exact inv_finishOp (quiet_storeResult hq)
  | finishes => exact inv_finishOp hq

theorem inv_settle {s : State} (h : Inv s) (hpos : s.pos = .settle) : Inv (settleEvent s) := by
  have hq := quiet_of_inv h (.inr hpos)
  have hpos' : s.pos ≠ .idle := by rw [hpos]; exact nofun
  have hop : s.opr = 3#3 := by
    have hlegal := h.pos
    rw [hpos] at hlegal
    exact eq_of_beq hlegal
  have hbusy := busy_of_inv h hpos'
  have hdone := done_of_inv h hpos'
  exact inv_of_opening (o := 3) ⟨hq.att, hq.clk, hq.rflen, hq.axes⟩ rfl hbusy hdone
    (catalogEntry_length _ 3) (.inr ⟨hop, h.config hop hbusy, 3, rfl, rfl⟩)

theorem inv_microStep {s : State} (h : Inv s) : Inv (microStep s) := by
  generalize ht : microStep s = t
  cases microStepTo_of_eq ht with
  | idle => exact h
  | exchange k hk hpos => exact inv_exchange h hk hpos
  | exchangeEnd hpos => exact inv_exchangeEnd h hpos
  | attentionLow o hpos => exact inv_attentionLow h hpos
  | byte o j k hj hk hpos => exact inv_byte h hj hk hpos
  | attentionHigh o p hpos hp => exact inv_attentionHigh h hpos hp
  | settle hpos => exact inv_settle h hpos

/-! ### Host moves, reads and reset keep the invariant -/

/-- The invariant says nothing of the agents around the block. -/
theorem inv_outside {s : State} (h : Inv s) (peer : Peer) (draws : Nat) (turns : List Turn)
    (hostGot : BitVec 16) :
    Inv { s with peer := peer, draws := draws, turns := turns, hostGot := hostGot } :=
  ⟨h.busy, h.done, h.att, h.clk, h.pos, h.len, h.sel, h.frame, h.filled, h.rflen, h.config, h.axes⟩

theorem inv_resetWith (p : Config.Params) : Inv (State.resetWith p) :=
  inv_of_idle ⟨rfl, rfl, Nat.zero_le 16, fun _ => rfl⟩ rfl rfl

theorem inv_applyReset (s : State) : Inv (applyReset s) :=
  inv_outside (inv_resetWith s.params) s.peer s.draws s.turns s.hostGot

theorem inv_hostRead {s : State} (r : HReg) (h : Inv s) : Inv (hostRead r s) := by
  unfold hostRead
  split
  next => exact inv_outside h s.peer _ s.turns _
  next => exact inv_outside h s.peer s.draws s.turns _

/-- `XCHG` begins with the lines at rest (R117). -/
theorem inv_startXchg {s : State} (sel : BitVec 3) (hq : Quiet s) : Inv (startXchg sel s) where
  busy := rfl
  done := nofun
  att := hq.att
  clk := hq.clk
  pos := rfl
  len := rfl
  sel := rfl
  frame := nofun
  filled := nofun
  rflen := hq.rflen
  config := nofun
  axes := hq.axes

theorem inv_make {s : State} (m : HostMove) (h : Inv s) : Inv (m.make s) := by
  generalize ht : m.make s = t
  rcases make_cases ht with rfl | ⟨hb, hmove⟩
  · exact h
  · have hpos := pos_idle_of_inv h hb
    have hq := quiet_of_inv h (.inl hpos)
    cases hmove with
    | stores txd cf cflen rf rflen hlen =>
      have hle : rflen.toNat ≤ 16 := hlen.elim (fun he => he ▸ hq.rflen) id
      exact inv_of_idle ⟨hq.att, hq.clk, hle, hq.axes⟩ hpos hb
    | exchanges sel => exact inv_startXchg sel hq
    | opens op sel frame cf cflen hlen hop =>
      exact inv_of_opening ⟨hq.att, hq.clk, hq.rflen, hq.axes⟩ rfl rfl rfl hlen (.inl ⟨rfl, hop⟩)
    | configures sel =>
      exact inv_of_opening ⟨hq.att, hq.clk, hq.rflen, hq.axes⟩ rfl rfl rfl (catalogEntry_length _ 0)
        (.inr ⟨rfl, rfl, 0, rfl, rfl⟩)
    | decodes sel rf rflen hle => exact inv_finishOp (quiet_storeResult ⟨hq.att, hq.clk, hle, hq.axes⟩)

theorem inv_step {s t : State} (h : Inv s) (hstep : step s = .next t) : Inv t := by
  cases stepTo_of_step hstep with
  | reset rest => exact inv_applyReset _
  | read r rest => exact inv_hostRead r (inv_outside h s.peer s.draws rest s.hostGot)
  | move turn rest m => exact inv_make m (inv_outside h s.peer s.draws rest s.hostGot)
  | sequencer turns => exact inv_microStep (inv_outside h s.peer s.draws turns s.hostGot)
  | waitOver rest => exact inv_outside h s.peer s.draws rest s.hostGot

/-! ### The obligations -/

/-- Settles O43, by what a step can be: a reset, a host's read or move, or a micro-step, each of which
keeps the invariant. -/
theorem everyStepKeepsTheInvariant : Obligations.EveryStepKeepsTheInvariant :=
  fun _ _ => inv_step

/-- Settles O42: the reset state is an idle block at rest. -/
theorem resetMeetsTheInvariant : Obligations.ResetMeetsTheInvariant :=
  fun p => ⟨inv_resetWith Config.params, inv_resetWith p⟩

end Sys2Proof.Machine
end

section
/-!
PROOFS. What a step leaves as it is, and who writes the rest: the parameters (R40, R73), the Poll Result
(R39, R156), `CFG_FAIL` (R26, R145, R187), the registers inside a session (R126, R129) and the frame in
flight (R24, R62); and that no operation but `INIT` reads `CFG_FAIL` (R186).
-/
namespace Sys2Proof.Machine

/-! ### The parameters (R5, R40) -/

theorem endSession_params (o : Fin 4) (s : State) : (endSession o s).params = s.params := by
  generalize ht : endSession o s = t
  cases sessionEndTo_of_eq ht with
  | opens | settles | finishes => rfl
  | validates => simp [endInit]
  | decodes => simp

theorem microStep_params (s : State) : (microStep s).params = s.params := by
  generalize ht : microStep s = t
  cases microStepTo_of_eq ht with
  | idle | attentionLow | settle => rfl
  | exchange | exchangeEnd | byte => simp
  | attentionHigh o => rw [endSession_params, lineWrite_params]

theorem make_params (m : HostMove) (s : State) : (m.make s).params = s.params := by
  generalize ht : m.make s = t
  rcases make_cases ht with rfl | ⟨-, hmove⟩
  · rfl
  · cases hmove with
    | stores | exchanges | opens | configures => rfl
    | decodes => simp

@[simp] theorem hostRead_params (r : HReg) (s : State) : (hostRead r s).params = s.params := by
  unfold hostRead
  split <;> rfl

theorem step_params {s t : State} (h : step s = .next t) : t.params = s.params := by
  cases stepTo_of_step h with
  | reset | waitOver => rfl
  | read => rw [hostRead_params]
  | move => rw [make_params]
  | sequencer => rw [microStep_params]

/-! ### The Poll Result (R39, R156, R166) -/

/-- The Poll Result as it stands in the registers. -/
def storedResult (s : State) : PollResult := { analog := s.analog, axis := s.axis, pressed := s.pressed }

theorem storedResult_eq_iff {s : State} {r : PollResult} :
    storedResult s = r ↔ s.analog = r.analog ∧ s.axis = r.axis ∧ s.pressed = r.pressed := by
  cases r
  simp [storedResult]

@[simp] theorem storedResult_storeResult (s : State) :
    storedResult (storeResult s) = decodeFrame s.rflen.toNat s.rf := by
  rw [storeResult_eq]
  rfl

/-- The last event of a `POLL`'s session is next. -/
def PollEnds (s : State) : Prop :=
  s.opr = 4#3 ∧ ∃ o p, s.pos = .ses o p ∧ 33 * s.fr.length < p

theorem endSession_storedResult (o : Fin 4) (s : State) :
    storedResult (endSession o s) = storedResult s ∨
      (s.opr = 4#3 ∧ endSession o s = finishOp (storeResult s)) := by
  generalize ht : endSession o s = t
  cases sessionEndTo_of_eq ht with
  | opens | settles | finishes => exact .inl rfl
  | validates => exact .inl (by simp [endInit, storedResult])
  | decodes _ hop => exact .inr ⟨hop, rfl⟩

/-- A micro-step writes the Poll Result only as the last event of a `POLL` (R156). -/
theorem microStep_storedResult (s : State) :
    storedResult (microStep s) = storedResult s ∨
      (PollEnds s ∧ storedResult (microStep s) = decodeFrame s.rflen.toNat s.rf ∧
        (microStep s).pos = .idle) := by
  generalize ht : microStep s = t
  cases microStepTo_of_eq ht with
  | idle | attentionLow | settle => exact .inl rfl
  | exchange | exchangeEnd | byte => exact .inl (by simp [storedResult])
  | attentionHigh o p hpos hp =>
    rcases endSession_storedResult o (lineWrite .att 1#1 s) with hkeep | ⟨hop, hend⟩
    · exact .inl hkeep
    · rw [hend]
      exact .inr ⟨⟨hop, o, p, hpos, hp⟩, storedResult_storeResult (lineWrite .att 1#1 s), rfl⟩

/-- A host move writes the Poll Result only as a `DECODE` or a field word on an idle block (R166; log 1). -/
theorem make_storedResult (m : HostMove) (s : State) :
    storedResult (m.make s) = storedResult s ∨
      (s.busy = 0#1 ∧ (m.make s).opr = 5#3 ∧ (m.make s).done = 1#1 ∧ (m.make s).pos = .idle ∧
        storedResult (m.make s) = decodeFrame (m.make s).rflen.toNat (m.make s).rf ∧ m.Decodes) := by
  generalize ht : m.make s = t
  rcases make_cases ht with rfl | ⟨hb, hmove⟩
  · exact .inl rfl
  · cases hmove with
    | stores | exchanges | opens | configures => exact .inl rfl
    | decodes sel rf rflen hle hm =>
      refine .inr ⟨hb, ?_, rfl, rfl, ?_, hm⟩
      · rw [finishOp_opr, storeResult_opr, beginOp_opr]
      · rw [finishOp_rflen, finishOp_rf, storeResult_rflen, storeResult_rf]
        exact storedResult_storeResult _

@[simp] theorem hostRead_storedResult (r : HReg) (s : State) :
    storedResult (hostRead r s) = storedResult s := by
  unfold hostRead
  split <;> rfl

/-- Every writer of the Poll Result (R39, R210). -/
theorem step_storedResult {s t : State} (h : step s = .next t) :
    storedResult t = storedResult s ∨ (∃ rest, s.turns = .reset :: rest) ∨
      (PollEnds s ∧ storedResult t = decodeFrame s.rflen.toNat s.rf ∧ t.pos = .idle) ∨
      (s.busy = 0#1 ∧ t.opr = 5#3 ∧ t.done = 1#1 ∧ t.pos = .idle ∧
        storedResult t = decodeFrame t.rflen.toNat t.rf ∧
        ∃ turn rest m, s.turns = turn :: rest ∧ turnMove turn = some m ∧ m.Decodes) := by
  cases stepTo_of_step h with
  | reset rest hturns => exact .inr (.inl ⟨rest, hturns⟩)
  | read r rest => exact .inl (hostRead_storedResult r { s with turns := rest })
  | waitOver => exact .inl rfl
  | sequencer turns =>
    exact (microStep_storedResult { s with turns := turns }).imp_right fun hpoll => .inr (.inl hpoll)
  | move turn rest m hturns hm =>
    rcases make_storedResult m { s with turns := rest } with hkeep | ⟨hb, hop, hdone, hpos, hres, hkind⟩
    · exact .inl hkeep
    · exact .inr (.inr (.inr ⟨hb, hop, hdone, hpos, hres, turn, rest, m, hturns, hm, hkind⟩))

/-! ### Which words decode -/

/-- No `CTRL` word is a field of a Response Frame. -/
theorem instrMove_decodeCtrl_ne_field (b : Byte) (j : Nat) (bs : List Byte) :
    instrMove (decodeCtrl b) ≠ .field j bs := by
  unfold decodeCtrl decodeOp decodeSel
  split_ifs
  · exact nofun
  · exact nofun
  · split
    case h_3 => split <;> exact nofun
    all_goals exact nofun

theorem eq_decode_of_instrMove {i : Instr} {sel : BitVec 3} (h : instrMove i = .decode sel) :
    i = .decode sel := by
  cases i <;> cases h
  rfl

/-- A turn is a `DECODE` where it writes or presents the `CTRL` word of one. -/
theorem decode_of_turnMove {turn : Turn} {sel : BitVec 3} (h : turnMove turn = some (.decode sel)) :
    ∃ v, (turn = .write .ctrl v ∨ turn = .present (.ctrl v)) ∧ decodeCtrl v = .decode sel := by
  cases turn with
  | write r v =>
    by_cases hr : r = .ctrl
    · subst hr
      exact ⟨v, .inl rfl, eq_decode_of_instrMove (Option.some.inj h)⟩
    · rw [turnMove_write hr] at h
      cases h
  | present it =>
    cases it with
    | ctrl v => exact ⟨v, .inr rfl, eq_decode_of_instrMove (Option.some.inj h)⟩
    | frame | mode | mask | axis => cases h
  | reset | read | tick | wait | intruder => cases h

/-- A turn is a field word where it presents a mode byte, a mask or an axis byte. -/
theorem field_of_turnMove {turn : Turn} {j : Nat} {bs : List Byte}
    (h : turnMove turn = some (.field j bs)) :
    (∃ b, turn = .present (.mode b)) ∨ (∃ k m, turn = .present (.mask k m)) ∨
      ∃ a b, turn = .present (.axis a b) := by
  cases turn with
  | write r v =>
    by_cases hr : r = .ctrl
    · subst hr
      exact absurd (Option.some.inj h) (instrMove_decodeCtrl_ne_field v j bs)
    · rw [turnMove_write hr] at h
      cases h
  | present it =>
    cases it with
    | ctrl v => exact absurd (Option.some.inj h) (instrMove_decodeCtrl_ne_field v j bs)
    | frame => cases h
    | mode b => exact .inl ⟨b, rfl⟩
    | mask k m => exact .inr (.inl ⟨k, m, rfl⟩)
    | axis a b => exact .inr (.inr ⟨a, b, rfl⟩)
  | reset | read | tick | wait | intruder => cases h

/-- What the host's next turn is where its move decodes. -/
theorem turns_of_decodes {s : State} {turn : Turn} {rest : List Turn} {m : HostMove}
    (hturns : s.turns = turn :: rest) (hm : turnMove turn = some m) (hkind : m.Decodes) :
    (∃ v sel rest, (s.turns = .write .ctrl v :: rest ∨ s.turns = .present (.ctrl v) :: rest) ∧
        decode .ctrl [v] = .ok (.decode sel)) ∨
      (∃ b rest, s.turns = .present (.mode b) :: rest) ∨
      (∃ k m rest, s.turns = .present (.mask k m) :: rest) ∨
      ∃ a b rest, s.turns = .present (.axis a b) :: rest := by
  rcases hkind with ⟨sel, rfl⟩ | ⟨j, bs, rfl⟩
  · obtain ⟨v, hturn, hdecode⟩ := decode_of_turnMove hm
    refine .inl ⟨v, sel, rest, ?_, congrArg Except.ok hdecode⟩
    exact hturn.imp (by rintro rfl; exact hturns) (by rintro rfl; exact hturns)
  · rcases field_of_turnMove hm with ⟨b, rfl⟩ | ⟨k, mask, rfl⟩ | ⟨a, b, rfl⟩
    · exact .inr (.inl ⟨b, rest, hturns⟩)
    · exact .inr (.inr (.inl ⟨k, mask, rest, hturns⟩))
    · exact .inr (.inr (.inr ⟨a, b, rest, hturns⟩))

/-! ### `CFG_FAIL` (R26, R145, R187) -/

/-- The last event of `INIT` is next, on a mode byte that is not recognized. -/
def ValidationFails (s : State) : Prop :=
  s.opr = 3#3 ∧ (∃ p, s.pos = .ses 3 p ∧ 33 * s.fr.length < p) ∧ s.rf[1] ≠ 0x41#8 ∧ s.rf[1] ≠ 0x73#8

theorem recognizedMode_iff (b : Byte) : recognizedMode b = true ↔ b = 0x41#8 ∨ b = 0x73#8 := by
  simp [recognizedMode]

theorem endSession_cfgFail (o : Fin 4) (s : State) :
    (endSession o s).cfgFail = s.cfgFail ∨
      (s.opr = 3#3 ∧ o = 3 ∧ recognizedMode s.rf[1] ≠ true ∧ endSession o s = endInit s) := by
  generalize ht : endSession o s = t
  cases sessionEndTo_of_eq ht with
  | opens | settles | finishes => exact .inl rfl
  | decodes => exact .inl (by simp)
  | validates hop =>
    by_cases hmode : recognizedMode s.rf[1] = true
    · exact .inl (by simp [endInit, hmode])
    · exact .inr ⟨hop, rfl, hmode, rfl⟩

/-- A micro-step writes `CFG_FAIL` only as the last event of `INIT` (R145). -/
theorem microStep_cfgFail (s : State) :
    (microStep s).cfgFail = s.cfgFail ∨
      (ValidationFails s ∧ (microStep s).cfgFail = 1#1 ∧ (microStep s).pos = .idle ∧
        (microStep s).done = 1#1) := by
  generalize ht : microStep s = t
  cases microStepTo_of_eq ht with
  | idle | attentionLow | settle => exact .inl rfl
  | exchange | exchangeEnd | byte => exact .inl (by simp)
  | attentionHigh o p hpos hp =>
    rcases endSession_cfgFail o (lineWrite .att 1#1 s) with hkeep | ⟨hop, rfl, hmode, hend⟩
    · exact .inl hkeep
    · obtain ⟨hdigital, hanalog⟩ := not_or.mp (mt (recognizedMode_iff _).mpr hmode)
      rw [hend]
      refine .inr ⟨⟨hop, ⟨p, hpos, hp⟩, hdigital, hanalog⟩, ?_, rfl, rfl⟩
      rw [endInit, finishOp_cfgFail, raiseIf_validation_cfgFail, if_neg hmode]

/-- A host move writes `CFG_FAIL` only as the start of an `INIT` on an idle block (R140). -/
theorem make_cfgFail (m : HostMove) (s : State) :
    (m.make s).cfgFail = s.cfgFail ∨
      (s.busy = 0#1 ∧ (∃ sel, m = .init sel) ∧ (m.make s).cfgFail = 0#1 ∧ (m.make s).opr = 3#3 ∧
        (m.make s).pos = .ses 0 0) := by
  generalize ht : m.make s = t
  rcases make_cases ht with rfl | ⟨hb, hmove⟩
  · exact .inl rfl
  · cases hmove with
    | stores | exchanges | opens => exact .inl rfl
    | configures sel hm => exact .inr ⟨hb, ⟨sel, hm⟩, rfl, rfl, rfl⟩
    | decodes => exact .inl (by simp)

@[simp] theorem hostRead_cfgFail (r : HReg) (s : State) : (hostRead r s).cfgFail = s.cfgFail := by
  unfold hostRead
  split <;> rfl

/-- Every writer of `CFG_FAIL` (R26). -/
theorem step_cfgFail {s t : State} (h : step s = .next t) :
    t.cfgFail = s.cfgFail ∨ (ValidationFails s ∧ t.cfgFail = 1#1 ∧ t.pos = .idle ∧ t.done = 1#1) ∨
      (t.cfgFail = 0#1 ∧
        ((∃ rest, s.turns = .reset :: rest) ∨ (t.opr = 3#3 ∧ t.pos = .ses 0 0 ∧ s.busy = 0#1))) := by
  cases stepTo_of_step h with
  | reset rest hturns => exact .inr (.inr ⟨rfl, .inl ⟨rest, hturns⟩⟩)
  | read => exact .inl (hostRead_cfgFail _ _)
  | move turn rest m =>
    rcases make_cfgFail m { s with turns := rest } with hkeep | ⟨hb, -, hcfg, hop, hpos⟩
    · exact .inl hkeep
    · exact .inr (.inr ⟨hcfg, .inr ⟨hop, hpos, hb⟩⟩)
  | sequencer turns => exact (microStep_cfgFail { s with turns := turns }).imp_right .inl
  | waitOver => exact .inl rfl

/-! ### The model does not read `CFG_FAIL` (R186) -/

/-- The state with `CFG_FAIL` replaced. -/
def setCfgFail (c : Bit) (s : State) : State := { s with cfgFail := c }

section
variable (c : Bit) (s : State)

theorem lineWrite_setCfgFail (l : OutLine) (v : Bit) :
    lineWrite l v (setCfgFail c s) = setCfgFail c (lineWrite l v s) := by cases l <;> rfl

theorem bxEvent_setCfgFail (k : Nat) : bxEvent k (setCfgFail c s) = setCfgFail c (bxEvent k s) := by
  by_cases hk : k = 0
  · subst hk
    rfl
  · have htxb : (setCfgFail c s).txb = s.txb := rfl
    simp only [bxEvent, if_neg hk, htxb]
    cases bxAct s.txb k with
    | drive l v => exact lineWrite_setCfgFail c s l v
    | sample i => rfl

theorem byteEvent_setCfgFail (j k : Nat) :
    byteEvent j k (setCfgFail c s) = setCfgFail c (byteEvent j k s) := by
  by_cases h0 : k = 0
  · subst h0
    exact bxEvent_setCfgFail c (loadByte j s) 0
  · by_cases h32 : k = 32
    · subst h32
      exact congrArg (storeByte j) (bxEvent_setCfgFail c s 32)
    · rw [byteEvent_middle j k _ h0 h32, byteEvent_middle j k s h0 h32, bxEvent_setCfgFail]

theorem storeResult_setCfgFail : storeResult (setCfgFail c s) = setCfgFail c (storeResult s) := by
  rw [storeResult_eq, storeResult_eq]
  rfl

theorem endSession_setCfgFail (o : Fin 4) (hop : s.opr ≠ 3#3) :
    endSession o (setCfgFail c s) = setCfgFail c (endSession o s) := by
  by_cases h4 : s.opr = 4#3
  · rw [endSession_poll (s := setCfgFail c s) h4, endSession_poll h4, storeResult_setCfgFail]
    rfl
  · rw [endSession_other (s := setCfgFail c s) hop h4, endSession_other hop h4]
    rfl

/-- A micro-step of an operation but `INIT` is the same whatever `CFG_FAIL` is. -/
theorem microStep_setCfgFail (hop : s.opr ≠ 3#3) :
    microStep (setCfgFail c s) = setCfgFail c (microStep s) := by
  generalize ht : microStep s = t
  cases microStepTo_of_eq ht with
  | idle hpos => exact microStep_idle hpos
  | exchange k hk hpos =>
    rw [microStep_exchange (s := setCfgFail c s) hk hpos, bxEvent_setCfgFail]
    rfl
  | exchangeEnd hpos =>
    rw [microStep_exchangeEnd (s := setCfgFail c s) hpos, bxEvent_setCfgFail]
    rfl
  | attentionLow o hpos => exact microStep_attentionLow (s := setCfgFail c s) hpos
  | byte o j k hj hk hpos =>
    rw [microStep_byte o j k (setCfgFail c s) hj hk hpos, byteEvent_setCfgFail]
    rfl
  | attentionHigh o p hpos hp =>
    rw [microStep_attentionHigh (s := setCfgFail c s) hpos hp, lineWrite_setCfgFail]
    exact endSession_setCfgFail c _ o hop
  | settle hpos => exact microStep_settle (s := setCfgFail c s) hpos

theorem whenIdle_setCfgFail (t : State) :
    whenIdle (setCfgFail c s) (setCfgFail c t) = setCfgFail c (whenIdle s t) :=
  (apply_ite (setCfgFail c) (s.busy = 1#1) s t).symm

theorem startSession_setCfgFail (sel : BitVec 3) :
    startSession sel (setCfgFail c s) = setCfgFail c (startSession sel s) := by
  by_cases h : sessionLegal s = true
  · rw [startSession, startSession, if_pos h, if_pos (show sessionLegal (setCfgFail c s) = true from h)]
    rfl
  · rw [startSession, startSession, if_neg h,
      if_neg (show ¬ sessionLegal (setCfgFail c s) = true from h)]

theorem decodeNow_setCfgFail (sel : BitVec 3) :
    decodeNow sel (setCfgFail c s) = setCfgFail c (decodeNow sel s) := by
  by_cases h : decodeLegal s = true
  · rw [decodeNow, decodeNow, if_pos h, if_pos (show decodeLegal (setCfgFail c s) = true from h)]
    exact congrArg finishOp (storeResult_setCfgFail c (beginOp 5#3 sel s))
  · rw [decodeNow, decodeNow, if_neg h, if_neg (show ¬ decodeLegal (setCfgFail c s) = true from h)]

theorem hostWrite_setCfgFail (r : HReg) (v : Byte) :
    hostWrite r v (setCfgFail c s) = setCfgFail c (hostWrite r v s) := by
  cases r with
  | rflen =>
    by_cases hv : v.toNat ≤ 16
    · simp only [hostWrite, Config.lmax, if_pos hv]
      exact whenIdle_setCfgFail c s { s with rflen := v.setWidth 5 }
    · rw [hostWrite_rflen_refused v (Nat.not_le.mp hv), hostWrite_rflen_refused v (Nat.not_le.mp hv)]
  | txd => exact whenIdle_setCfgFail c s { s with txd := v }
  | cflen => exact whenIdle_setCfgFail c s { s with cflen := v.setWidth 5 }
  | cf j => exact whenIdle_setCfgFail c s { s with cf := s.cf.set j v }
  | rf j => exact whenIdle_setCfgFail c s { s with rf := s.rf.set j v }
  | ctrl | status | rxd | result | pressed | axis | lines => exact whenIdle_setCfgFail c s s

/-- A host move but the start of `INIT` is the same whatever `CFG_FAIL` is. -/
theorem make_setCfgFail {m : HostMove} (hm : ∀ sel, m ≠ .init sel) :
    m.make (setCfgFail c s) = setCfgFail c (m.make s) := by
  cases m with
  | nothing => rfl
  | xchg sel => exact whenIdle_setCfgFail c s (startXchg sel s)
  | session sel =>
    exact (congrArg _ (startSession_setCfgFail c s sel)).trans (whenIdle_setCfgFail c s _)
  | catalog e => exact whenIdle_setCfgFail c s (startCatalogSession e s)
  | init sel => exact absurd rfl (hm sel)
  | poll sel =>
    exact whenIdle_setCfgFail c s
      (openSession 0 (catalogEntry s.params.catalogue 3) (beginOp 4#3 sel s))
  | decode sel => exact (congrArg _ (decodeNow_setCfgFail c s sel)).trans (whenIdle_setCfgFail c s _)
  | frame bs =>
    exact (congrArg _ (startSession_setCfgFail c
      { s with cf := putBytes s.cf 0 bs.toList, cflen := 9#5 } 0#3)).trans (whenIdle_setCfgFail c s _)
  | field j bs =>
    exact (congrArg _ (decodeNow_setCfgFail c
      { s with rf := putBytes s.rf j bs, rflen := 9#5 } 0#3)).trans (whenIdle_setCfgFail c s _)
  | store r v => exact hostWrite_setCfgFail c s r v

end

theorem instrMove_ne_init {i : Instr} (h : ∀ sel, i ≠ .init sel) (sel : BitVec 3) :
    instrMove i ≠ .init sel := by
  cases i with
  | init sel' => exact absurd rfl (h sel')
  | _ => exact nofun

/-! ### The obligations -/

/-- Settles O45: each kind of step keeps `params`, and the lengths are those of the catalogue's type. -/
theorem catalogueIsImmutable : Obligations.CatalogueIsImmutable := by
  refine ⟨fun s t h => step_params h, fun c e => ?_⟩
  obtain ⟨hmin, hmax⟩ := catalogEntry_length c e
  exact ⟨hmin, hmax, c.readData.length_toList⟩

/-- Settles O52: the attention write, or event `k` of byte `j`. -/
theorem sessionMicroStepFrame : Obligations.SessionMicroStepFrame := by
  intro s o p hpos hp
  by_cases h0 : p = 0
  · subst h0
    refine ⟨0#1, s.cmd, s.clk, s.txb, s.acc, s.rf, 0#5, s.reads, s.draws, .write .att 0#1,
      microStep_attentionLow hpos, fun _ => ⟨rfl, rfl, rfl, rfl, rfl, rfl⟩, fun h => absurd rfl h,
      fun _ => rfl, fun h => absurd rfl h, fun h => absurd rfl h, fun j => ⟨fun _ => rfl, fun h => ?_⟩⟩
    omega
  · obtain ⟨j, k, hj, hk, rfl⟩ := exists_byte_event h0 hp
    have hdiv : (33 * j + 1 + k - 1) / 33 = j := by omega
    have hmod : (33 * j + 1 + k - 1) % 33 = k := by omega
    obtain ⟨cmd, clk, acc, reads, draws, e, hbyte⟩ := byteEvent_frame j k s
    refine ⟨s.att, cmd, clk, _, acc, _, _, reads, draws, e,
      (microStep_byte o j k s hj hk hpos).trans (congrArg (moveTo _) hbyte), fun h => absurd h h0,
      fun _ => rfl, fun h => if_neg ?_, fun _ h => ?_, fun h => if_neg ?_, fun j' => ⟨fun h => ?_, fun h => ?_⟩⟩
    · omega
    · rw [hmod] at h
      rw [hdiv, if_pos h]
    · omega
    · by_cases h32 : k = 32
      · have hne : j ≠ j'.val := by omega
        simp [h32, hne]
      · rw [if_neg h32]
    · have h32 : k = 32 := by omega
      have hj' : j = j'.val := by omega
      have hlt : j'.val < 16 := j'.isLt
      rw [if_pos h32, if_pos h32, hj']
      refine ⟨by simp, ?_⟩
      rw [BitVec.toNat_ofNat]
      omega

/-- Settles O50: a busy block ignores the host, and a micro-step before the last writes no `FR`. -/
theorem frameInFlightIsLatched : Obligations.FrameInFlightIsLatched := by
  intro s t o p hb hpos hp hreset hstep
  cases stepTo_of_step hstep with
  | reset rest h => exact absurd h (hreset rest)
  | read r rest =>
    unfold hostRead
    split <;> rfl
  | move turn rest m => rw [make_busy (s := { s with turns := rest }) m hb]
  | sequencer turns =>
    obtain ⟨_, _, _, _, _, _, _, _, _, _, h, -⟩ :=
      sessionMicroStepFrame { s with turns := turns } o p hpos hp
    rw [h]
  | waitOver => rfl

/-- Settles O46, by every writer of the Poll Result: reset, the end of a `POLL`, and the host moves that
decode. -/
theorem onlyPollDecodes : Obligations.OnlyPollDecodes := by
  refine ⟨fun s => ?_, fun s t hstep hne => ?_⟩
  · rcases microStep_storedResult s with hkeep | ⟨⟨hop, hpos⟩, hres, hidle⟩
    · exact .inl (storedResult_eq_iff.mp hkeep)
    · obtain ⟨hanalog, haxis, hpressed⟩ := storedResult_eq_iff.mp hres
      exact .inr ⟨hop, hpos, hanalog, haxis, hpressed, hidle⟩
  · rcases step_storedResult hstep with hkeep | hreset | ⟨⟨hop, hpos⟩, hres, hidle⟩ |
      ⟨hb, hop, hdone, hidle, hres, turn, rest, m, hturns, hm, hkind⟩
    · obtain ⟨hanalog, haxis, hpressed⟩ := storedResult_eq_iff.mp hkeep
      rcases hne with hne | hne | hne
      · exact absurd hanalog hne
      · exact absurd haxis hne
      · exact absurd hpressed hne
    · exact .inl hreset
    · obtain ⟨hanalog, haxis, hpressed⟩ := storedResult_eq_iff.mp hres
      exact .inr (.inl ⟨hop, hpos, hanalog, haxis, hpressed, hidle⟩)
    · obtain ⟨hanalog, haxis, hpressed⟩ := storedResult_eq_iff.mp hres
      exact .inr (.inr ⟨hb, hop, hdone, hidle, hanalog, haxis, hpressed,
        turns_of_decodes hturns hm hkind⟩)

/-- Settles O47, by every writer of `CFG_FAIL`. -/
theorem onlyInitSignalsConfigurationFailure : Obligations.OnlyInitSignalsConfigurationFailure := by
  intro s t hstep
  rcases step_cfgFail hstep with
    hkeep | ⟨⟨hop, hpos, hdigital, hanalog⟩, hset, hidle, hdone⟩ | ⟨hclear, hwhere⟩
  · exact ⟨fun hne => absurd hkeep hne, fun hne => absurd hkeep hne⟩
  · refine ⟨fun _ _ => ⟨hop, hpos, hdigital, hanalog, hidle, hdone⟩, fun _ h => ?_⟩
    rw [hset] at h
    cases h
  · refine ⟨fun _ h => ?_, fun _ _ => hwhere⟩
    rw [hclear] at h
    cases h

/-- Settles O49: replacing `CFG_FAIL` commutes with every host move but `INIT`'s start and with every
micro-step but `INIT`'s. -/
theorem noOperationReadsConfigurationFailure : Obligations.NoOperationReadsConfigurationFailure := by
  intro s c
  refine ⟨fun i hi => ⟨_, exec_eq_make i s, ?_, ?_⟩, fun hop => ⟨?_, microStep_setCfgFail c s hop⟩⟩
  · rcases make_cfgFail (instrMove i) s with hkeep | ⟨-, ⟨sel, hinit⟩, -⟩
    · exact hkeep
    · exact absurd hinit (instrMove_ne_init hi sel)
  · rw [exec_eq_make]
    exact congrArg _ (make_setCfgFail c s (instrMove_ne_init hi))
  · rcases microStep_cfgFail s with hkeep | ⟨⟨hinit, -⟩, -⟩
    · exact hkeep
    · exact absurd hinit hop

end Sys2Proof.Machine
end

section
/-!
PROOFS. The record of a session as the peer sees it: the writes of each line and the levels read, of a bit
cell, a byte exchange, a frame and a session (R53, R71, R72), and the edges they make (R51, R115, R128).
-/
namespace Sys2Proof.Machine

/-! ### Writes of joined records -/

theorem writesOf_append (l : OutLine) (es fs : List Event) :
    writesOf l (es ++ fs) = writesOf l es ++ writesOf l fs := by
  induction es with
  | nil => rfl
  | cons e es ih =>
    cases e with
    | write l' v =>
      by_cases hl : l' = l
      · simp [writesOf, hl, ih]
      · simp [writesOf, hl, ih]
    | read d => exact ih
    | waitSettle => exact ih

/-! ### One line of a byte exchange (R71) -/

/-- `n` pulses of the clock: low, then high again. -/
def clkPulses : Nat → List Bit
  | 0 => []
  | n + 1 => 0#1 :: 1#1 :: clkPulses n

theorem clkPulses_append (m n : Nat) : clkPulses m ++ clkPulses n = clkPulses (m + n) := by
  induction m with
  | zero => simp [clkPulses]
  | succ m ih => simp [clkPulses, ih, Nat.add_right_comm]

@[simp] theorem writesOf_att_byteEvents (b a : Byte) : writesOf .att (byteEvents b a) = [] := rfl

@[simp] theorem writesOf_cmd_byteEvents (b a : Byte) :
    writesOf .cmd (byteEvents b a) = 0#1 :: (List.range 8).map (bitOf b) := rfl

@[simp] theorem writesOf_clk_byteEvents (b a : Byte) :
    writesOf .clk (byteEvents b a) = clkPulses 8 := rfl

@[simp] theorem readsOf_byteEvents (b a : Byte) :
    readsOf (byteEvents b a) = (List.range 8).map (bitOf a) := rfl

/-! ### `ATT` and `CLK` in a session (R72) -/

@[simp] theorem writesOf_att_frameEvents (f r : List Byte) : writesOf .att (frameEvents f r) = [] := by
  induction f generalizing r with
  | nil => rfl
  | cons b f ih =>
    cases r with
    | nil => rfl
    | cons a r => rw [frameEvents, writesOf_append, writesOf_att_byteEvents, ih, List.nil_append]

theorem writesOf_clk_frameEvents {f r : List Byte} (h : f.length = r.length) :
    writesOf .clk (frameEvents f r) = clkPulses (8 * f.length) := by
  induction f generalizing r with
  | nil => rfl
  | cons b f ih =>
    cases r with
    | nil => cases h
    | cons a r =>
      rw [frameEvents, writesOf_append, writesOf_clk_byteEvents, ih (Nat.succ.inj h), clkPulses_append,
        List.length_cons, Nat.mul_succ, Nat.add_comm]

theorem writesOf_sessionEvents (l : OutLine) (f r : List Byte) :
    writesOf l (sessionEvents f r) =
      writesOf l [.write .att 0#1] ++ writesOf l (frameEvents f r) ++ writesOf l [.write .att 1#1] := by
  rw [← writesOf_append, ← writesOf_append]
  rfl

theorem writesOf_att_sessionEvents (f r : List Byte) :
    writesOf .att (sessionEvents f r) = [0#1, 1#1] := by
  rw [writesOf_sessionEvents, writesOf_att_frameEvents]
  rfl

theorem writesOf_clk_sessionEvents {f r : List Byte} (h : f.length = r.length) :
    writesOf .clk (sessionEvents f r) = clkPulses (8 * f.length) := by
  rw [writesOf_sessionEvents, writesOf_clk_frameEvents h]
  exact List.append_nil _

/-! ### Edges (R51) -/

/-- From a high line, each pulse makes one edge to either level and leaves the line high. -/
theorem edgesTo_clkPulses (goal : Bit) (n : Nat) : edgesTo goal 1#1 (clkPulses n) = n := by
  induction n with
  | zero => rfl
  | succ n ih =>
    rcases BitVec.eq_zero_or_eq_one goal with rfl | rfl
    · simp [clkPulses, edgesTo, ih, Nat.add_comm]
    · simp [clkPulses, edgesTo, ih, Nat.add_comm]

/-! ### The obligation -/

/-- Settles O36: `ATT` is written low and high, once each, and `CLK` is pulsed eight times a byte. -/
theorem edgesThePeerSees : Obligations.EdgesThePeerSees := by
  intro f r b a h
  rw [writesOf_att_sessionEvents, writesOf_clk_sessionEvents h]
  exact ⟨rfl, rfl, rfl, edgesTo_clkPulses _ _, edgesTo_clkPulses _ _, writesOf_att_byteEvents b a,
    writesOf_cmd_byteEvents b a, readsOf_byteEvents b a⟩

end Sys2Proof.Machine
end

section
/-!
PROOFS. The encoding: a `CTRL` word by its fields (R79 to R81, R83), and that reading a word and writing
an instruction's word undo each other, format by format (R73, R75, R76, R77).
-/
namespace Sys2Proof

/-! ### The fields of a `CTRL` word as numbers (R79) -/

/-- Joined words as a number, the right one in the low bits. -/
theorem toNat_append_add {m n : Nat} (x : BitVec m) (y : BitVec n) :
    (x ++ y).toNat = 2 ^ n * x.toNat + y.toNat := by
  rw [BitVec.toNat_append, ← Nat.shiftLeft_add_eq_or_of_lt y.isLt, Nat.shiftLeft_eq, Nat.mul_comm]

theorem ctrlWord_toNat (start reserved : Bit) (sel op : BitVec 3) :
    (ctrlWord start reserved sel op).toNat =
      128 * start.toNat + 64 * reserved.toNat + 8 * sel.toNat + op.toNat := by
  rw [ctrlWord, toNat_append_add, toNat_append_add, toNat_append_add]
  omega

section
variable (b : Byte)

theorem ctrlStart_toNat : (ctrlStart b).toNat = b.toNat / 128 := by
  rw [ctrlStart, BitVec.extractLsb'_toNat, Nat.shiftRight_eq_div_pow]
  omega

theorem ctrlReserved_toNat : (ctrlReserved b).toNat = b.toNat / 64 % 2 := by
  rw [ctrlReserved, BitVec.extractLsb'_toNat, Nat.shiftRight_eq_div_pow]

theorem ctrlSel_toNat : (ctrlSel b).toNat = b.toNat / 8 % 8 := by
  rw [ctrlSel, BitVec.extractLsb'_toNat, Nat.shiftRight_eq_div_pow]

theorem ctrlOp_toNat : (ctrlOp b).toNat = b.toNat % 8 := BitVec.extractLsb'_toNat 0 3 b

/-- A byte is the word of its fields. -/
theorem ctrlWord_fields : ctrlWord (ctrlStart b) (ctrlReserved b) (ctrlSel b) (ctrlOp b) = b := by
  apply BitVec.eq_of_toNat_eq
  rw [ctrlWord_toNat, ctrlStart_toNat, ctrlReserved_toNat, ctrlSel_toNat, ctrlOp_toNat]
  omega

/-- `START` is 0 exactly below 128. -/
theorem ctrlStart_eq_zero_iff : ctrlStart b = 0#1 ↔ b.toNat < 128 := by
  have h := ctrlStart_toNat b
  bv_omega

theorem ctrlReserved_eq_one_iff (hstart : ctrlStart b ≠ 0#1) :
    ctrlReserved b = 1#1 ↔ 192 ≤ b.toNat := by
  have h := ctrlReserved_toNat b
  have hb := (ctrlStart_eq_zero_iff b).not.mp hstart
  bv_omega

end

section
variable (start reserved : Bit) (sel op : BitVec 3)

@[simp] theorem ctrlStart_ctrlWord : ctrlStart (ctrlWord start reserved sel op) = start := by
  apply BitVec.eq_of_toNat_eq
  rw [ctrlStart_toNat, ctrlWord_toNat]
  omega

@[simp] theorem ctrlReserved_ctrlWord : ctrlReserved (ctrlWord start reserved sel op) = reserved := by
  apply BitVec.eq_of_toNat_eq
  rw [ctrlReserved_toNat, ctrlWord_toNat]
  omega

@[simp] theorem ctrlSel_ctrlWord : ctrlSel (ctrlWord start reserved sel op) = sel := by
  apply BitVec.eq_of_toNat_eq
  rw [ctrlSel_toNat, ctrlWord_toNat]
  omega

@[simp] theorem ctrlOp_ctrlWord : ctrlOp (ctrlWord start reserved sel op) = op := by
  apply BitVec.eq_of_toNat_eq
  rw [ctrlOp_toNat, ctrlWord_toNat]
  omega

end

/-! ### Reading a `CTRL` word (R80, R81, R83) -/

section
variable {b : Byte}

theorem decodeCtrl_noStart (h : ctrlStart b = 0#1) : decodeCtrl b = .nopStart0 (b.extractLsb' 0 7) :=
  if_pos h

theorem decodeCtrl_reserved (h : ctrlStart b ≠ 0#1) (hr : ctrlReserved b = 1#1) :
    decodeCtrl b = .reservedBit6 (b.extractLsb' 0 6) := (if_neg h).trans (if_pos hr)

theorem decodeCtrl_operation (h : ctrlStart b ≠ 0#1) (hr : ctrlReserved b ≠ 1#1) :
    decodeCtrl b = decodeOp (ctrlOp b) (ctrlSel b) := (if_neg h).trans (if_neg hr)

end

theorem decodeCtrl_ctrlWord (sel op : BitVec 3) :
    decodeCtrl (ctrlWord 1 0 sel op) = decodeOp op sel := by
  rw [decodeCtrl_operation (by simp) (by simp), ctrlOp_ctrlWord, ctrlSel_ctrlWord]

theorem decodeCtrl_append_low7 (low : BitVec 7) : decodeCtrl (0#1 ++ low) = .nopStart0 low := by
  have hstart : ctrlStart (0#1 ++ low) = 0#1 := BitVec.extractLsb'_append_eq_left
  rw [decodeCtrl_noStart hstart, BitVec.extractLsb'_append_eq_right]

theorem decodeCtrl_append_low6 (low : BitVec 6) :
    decodeCtrl (1#1 ++ 1#1 ++ low) = .reservedBit6 low := by
  have hword : (1#1 ++ 1#1 ++ low).toNat = 192 + low.toNat := toNat_append_add 3#2 low
  have hstart : ctrlStart (1#1 ++ 1#1 ++ low) ≠ 0#1 := by
    rw [Ne, ctrlStart_eq_zero_iff]
    omega
  have hreserved : ctrlReserved (1#1 ++ 1#1 ++ low) = 1#1 := by
    rw [ctrlReserved_eq_one_iff _ hstart]
    omega
  rw [decodeCtrl_reserved hstart hreserved, BitVec.extractLsb'_append_eq_right]

/-- The cases of `SEL` exclude each other, so that one row answers all eight (R81). -/
theorem decodeSel_rows (sel : BitVec 3) :
    (sel = 0 → decodeSel sel = .csessionEnterConfig) ∧ (sel = 1 → decodeSel sel = .csessionSetMode) ∧
    (sel = 2 → decodeSel sel = .csessionExitConfig) ∧ (sel = 3 → decodeSel sel = .csessionReadData) ∧
    (sel = 4 → decodeSel sel = .csessionMotorEnable) ∧ (sel = 5 → decodeSel sel = .csessionGetStatus) ∧
    (sel = 6 → decodeSel sel = .reservedSel6) ∧ (sel = 7 → decodeSel sel = .reservedSel7) := by
  refine ⟨?_, ?_, ?_, ?_, ?_, ?_, ?_, ?_⟩ <;> rintro rfl <;> rfl

/-- The row of each operation code (R80); that of 2 is told by `SEL`. -/
theorem decodeOp_rows (op sel : BitVec 3) :
    if op.toNat = 0 then decodeOp op sel = .xchg sel
    else if op.toNat = 1 then decodeOp op sel = .session sel
    else if op.toNat = 2 then decodeOp op sel = decodeSel sel
    else if op.toNat = 3 then decodeOp op sel = .init sel
    else if op.toNat = 4 then decodeOp op sel = .poll sel
    else if op.toNat = 5 then decodeOp op sel = .decode sel
    else if op.toNat = 6 then decodeOp op sel = .reservedOp6 sel
    else decodeOp op sel = .reservedOp7 sel := by
  split_ifs with h0 h1 h2 h3 h4 h5 h6
  case neg =>
    have h7 : op.toNat = 7 := by omega
    simp only [decodeOp, h7]
  all_goals simp only [decodeOp, *]

/-! ### What is read is a row, and writes back as the word read -/

/-- The instruction is one of its row's words, and that word is `it`. -/
def IsWord (i : Instr) (it : Item) : Prop := i.wellFormed = true ∧ i.item = it

/-- Each of the 64 started words with bit 6 clear is its row's (R80, R81, R83). -/
theorem decodeOp_isWord (op sel : BitVec 3) :
    IsWord (decodeOp op sel) (.ctrl (ctrlWord 1 0 sel op)) := by
  revert op sel
  unfold IsWord
  decide

/-- A byte below 128 is its low seven bits with `START` = 0. -/
theorem noStart_append_low7 {b : Byte} (h : b.toNat < 128) : (0#1 ++ b.extractLsb' 0 7 : Byte) = b := by
  apply BitVec.eq_of_toNat_eq
  rw [toNat_append_add, BitVec.extractLsb'_toNat, Nat.shiftRight_zero, BitVec.toNat_ofNat]
  omega

/-- A byte from 192 on is its low six bits with `START` and bit 6 both 1. -/
theorem reserved_append_low6 {b : Byte} (h : 192 ≤ b.toNat) :
    (1#1 ++ 1#1 ++ b.extractLsb' 0 6 : Byte) = b := by
  apply BitVec.eq_of_toNat_eq
  rw [toNat_append_add, BitVec.extractLsb'_toNat, Nat.shiftRight_zero,
    show (1#1 ++ 1#1 : BitVec 2).toNat = 3 from rfl]
  omega

theorem ctrlWord_of_start {b : Byte} (hstart : ctrlStart b ≠ 0#1) (hreserved : ctrlReserved b ≠ 1#1) :
    ctrlWord 1 0 (ctrlSel b) (ctrlOp b) = b := by
  have hs : ctrlStart b = 1 := by bv_omega
  have hr : ctrlReserved b = 0 := by bv_omega
  rw [← hs, ← hr, ctrlWord_fields]

theorem decodeCtrl_isWord (b : Byte) : IsWord (decodeCtrl b) (.ctrl b) := by
  by_cases hstart : ctrlStart b = 0#1
  · rw [decodeCtrl_noStart hstart]
    exact ⟨rfl, congrArg Item.ctrl (noStart_append_low7 ((ctrlStart_eq_zero_iff b).mp hstart))⟩
  · by_cases hreserved : ctrlReserved b = 1#1
    · rw [decodeCtrl_reserved hstart hreserved]
      have hb := (ctrlReserved_eq_one_iff b hstart).mp hreserved
      exact ⟨rfl, congrArg Item.ctrl (reserved_append_low6 hb)⟩
    · have hop := decodeOp_isWord (ctrlOp b) (ctrlSel b)
      rwa [ctrlWord_of_start hstart hreserved, ← decodeCtrl_operation hstart hreserved] at hop

theorem decodeFrameWord_isWord {bs : Vector Byte 9} {i : Instr} (h : decodeFrameWord bs = .ok i) :
    IsWord i (.frame bs) := by
  unfold decodeFrameWord at h
  split_ifs at h with h0 h1 h2 h3 h4 h5 <;> cases h <;> subst bs <;> exact ⟨rfl, rfl⟩

theorem decodeMode_isWord {b : Byte} {i : Instr} (h : decodeMode b = .ok i) : IsWord i (.mode b) := by
  unfold decodeMode at h
  split_ifs at h with h0 h1 <;> cases h <;> subst b <;> exact ⟨rfl, rfl⟩

/-- A button row's word is any mask in which its bit is clear (R76). -/
theorem buttonRow_isWord {k : Fin 16} {m : BitVec 16} (h : m.getLsbD k.val = false) :
    IsWord (buttonRow k m) (.mask k m) := by
  have hwf : (buttonRow k m).wellFormed = !m.getLsbD k.val := by fin_cases k <;> rfl
  have hitem : (buttonRow k m).item = .mask k m := by fin_cases k <;> rfl
  exact ⟨by rw [hwf, h]; rfl, hitem⟩

theorem decodeMask_ok_iff {k : Fin 16} {m : BitVec 16} {i : Instr} :
    decodeMask k m = .ok i ↔ m.getLsbD k.val = false ∧ buttonRow k m = i := by
  unfold decodeMask
  split_ifs with h
  · exact iff_of_false nofun fun hi => absurd (hi.1.symm.trans h) nofun
  · exact ⟨fun hi => ⟨Bool.eq_false_of_not_eq_true h, Except.ok.inj hi⟩, fun hi => congrArg _ hi.2⟩

theorem axisRow_isWord (a : Fin 4) (v : Byte) : IsWord (axisRow a v) (.axis a v) := by
  match a with
  | 0 | 1 | 2 | 3 => exact ⟨rfl, rfl⟩

/-- What a word is read as is a row of the table, whose word it is. -/
theorem isWord_of_decodeItem {it : Item} {i : Instr} (h : decodeItem it = .ok i) : IsWord i it := by
  cases it with
  | ctrl b => cases h; exact decodeCtrl_isWord b
  | frame bs => exact decodeFrameWord_isWord h
  | mode b => exact decodeMode_isWord h
  | mask k m =>
    obtain ⟨hclear, rfl⟩ := decodeMask_ok_iff.mp h
    exact buttonRow_isWord hclear
  | axis a v => cases h; exact axisRow_isWord a v

/-! ### A row's word is read as the row -/

theorem decodeItem_ctrlWord {i : Instr} {sel op : BitVec 3} (h : decodeOp op sel = i) :
    decodeItem (.ctrl (ctrlWord 1 0 sel op)) = .ok i := by
  rw [decodeItem, decodeCtrl_ctrlWord, h]

theorem decodeItem_item {i : Instr} (h : i.wellFormed = true) : decodeItem i.item = .ok i := by
  cases i with
  | xchg | session | init | poll | decode | csessionEnterConfig | csessionSetMode | csessionExitConfig
  | csessionReadData | csessionMotorEnable | csessionGetStatus | reservedOp6 | reservedOp7
  | reservedSel6 | reservedSel7 => exact decodeItem_ctrlWord rfl
  | reservedBit6 low => exact congrArg Except.ok (decodeCtrl_append_low6 low)
  | nopStart0 low => exact congrArg Except.ok (decodeCtrl_append_low7 low)
  | frameEnterConfig | frameSetMode | frameExitConfig | frameReadData | frameMotorEnable
  | frameGetStatus => decide
  | modeDigital | modeAnalog => rfl
  | buttonSelect | buttonL3 | buttonR3 | buttonStart | buttonUp | buttonRight | buttonDown | buttonLeft
  | buttonL2 | buttonR2 | buttonL1 | buttonR1 | buttonTriangle | buttonCircle | buttonCross
  | buttonSquare => exact decodeMask_ok_iff.mpr ⟨by simpa [Instr.wellFormed] using h, rfl⟩
  | axisRightX | axisRightY | axisLeftX | axisLeftY => rfl

theorem itemOf_of_decode {f : Format} {bs : List Byte} {i : Instr} (h : decode f bs = .ok i) :
    ∃ it, itemOf f bs = some it ∧ decodeItem it = .ok i := by
  unfold decode at h
  split at h
  next it hit => exact ⟨it, hit, h⟩
  next => cases h

/-! ### The obligations -/

/-- Settles O1: the bytes of a row's word spell that word, and it is read as the row. -/
theorem decodeOfEncodeIsTheInstruction : Obligations.DecodeOfEncodeIsTheInstruction :=
  fun i h => (decode_bytes i.item).trans (decodeItem_item h)

/-- Settles O2: the bytes spell one word, and what a word is read as writes it. -/
theorem encodeOfDecodeIsTheWord : Obligations.EncodeOfDecodeIsTheWord := by
  intro f bs i h
  obtain ⟨it, hit, hi⟩ := itemOf_of_decode h
  obtain ⟨hwf, rfl⟩ := isWord_of_decodeItem hi
  obtain ⟨hformat, hbytes⟩ := bytes_itemOf hit
  exact ⟨hwf, hformat, hbytes⟩

/-- Settles O3: each word is read by evaluation. -/
theorem wordsOfTheSpecDecode : Obligations.WordsOfTheSpecDecode := by
  unfold Obligations.WordsOfTheSpecDecode
  decide

/-- Settles O4: `START`, bit 6 and `OP` as numbers tell the rows apart. -/
theorem ctrlWordFields : Obligations.CtrlWordFields := by
  intro b
  refine ⟨decodeCtrl b, rfl, ?_⟩
  by_cases hlow : b.toNat < 128
  · simp only [if_pos hlow]
    exact decodeCtrl_noStart ((ctrlStart_eq_zero_iff b).mpr hlow)
  have hstart := (ctrlStart_eq_zero_iff b).not.mpr hlow
  by_cases hhigh : 192 ≤ b.toNat
  · simp only [if_neg hlow, if_pos hhigh]
    exact decodeCtrl_reserved hstart ((ctrlReserved_eq_one_iff b hstart).mpr hhigh)
  have hreserved := (ctrlReserved_eq_one_iff b hstart).not.mpr hhigh
  have hrows := decodeOp_rows (ctrlOp b) (ctrlSel b)
  rw [← decodeCtrl_operation hstart hreserved, ctrlOp_toNat] at hrows
  simp only [if_neg hlow, if_neg hhigh]
  split_ifs at hrows ⊢
  · exact hrows
  · exact hrows
  · exact hrows ▸ decodeSel_rows (ctrlSel b)
  all_goals exact hrows

end Sys2Proof
end

section
/-!
PROOFS. The words of a frame on an idle block (R85; log 1): what a field of a response leaves (R75 to R77,
R157 to R161), what a word that is no row leaves (R73), and that both are the register writes of R85.
-/
namespace Sys2Proof.Machine

/-! ### A buffer after a field's bytes (R85) -/

theorem putBytes_cons {j : Nat} (hj : j < 16) (v : Vector Byte 16) (b : Byte) (bs : List Byte) :
    putBytes v j (b :: bs) = putBytes (v.set j b) (j + 1) bs := by
  rw [putBytes]
  congr 1
  ext k hk
  rw [Vector.getElem_setIfInBounds, Vector.getElem_set]

theorem putBytes_one {j : Nat} (hj : j < 16) (v : Vector Byte 16) (b : Byte) :
    putBytes v j [b] = v.set j b := putBytes_cons hj v b []

theorem putBytes_two {j : Nat} (hj : j + 1 < 16) (v : Vector Byte 16) (b c : Byte) :
    putBytes v j [b, c] = (v.set j b).set (j + 1) c := by
  rw [putBytes_cons (by omega), putBytes_one hj]

/-! ### What a field leaves (R157 to R161) -/

/-- The axes the decoder gives for a full frame (R161). -/
def axesOf (r : Vector Byte 16) : Vector Byte 4 :=
  if r[1] = 0x73#8 then #v[r[5], r[6], r[7], r[8]] else #v[127, 127, 127, 127]

/-- The state after a field has been put into `RF`, which is then `r`, and decoded. -/
def afterField (r : Vector Byte 16) (s : State) : State :=
  { s with
    rf := r, rflen := 9#5, opr := 5#3, selr := 0#3, done := 1#1, pos := .idle
    analog := analogFlag r[1], axis := axesOf r, pressed := ~~~ (r[4] ++ r[3]) }

theorem analogFlag_eq_one_iff (b : Byte) : analogFlag b = 1#1 ↔ b = 0x73#8 := by
  unfold analogFlag
  split_ifs with h
  · exact iff_of_true rfl h
  · exact iff_of_false (by decide) h

theorem decodeFrame_nine (r : Vector Byte 16) :
    decodeFrame 9 r =
      { analog := analogFlag r[1], axis := axesOf r, pressed := ~~~ (r[4] ++ r[3]) } := by
  have hlen : ¬ 9 < Config.readLen := Nat.lt_irrefl 9
  simp only [decodeFrame, if_neg hlen, analogFlag_eq_one_iff, maskOf_eq, axesOf]
  rfl

section
variable {s : State} (hb : s.busy = 0#1)
include hb

theorem presentField_afterField (j : Nat) (bs : List Byte) :
    presentField j bs s = afterField (putBytes s.rf j bs) s := by
  rw [presentField_idle j bs s hb, decodeFrame_nine, ← hb]
  rfl

/-- The mode byte decides the axes by itself (R161). -/
theorem presentMode_idle (b : Byte) :
    presentMode b s =
      { s with
        rf := s.rf.set 1 b, rflen := 9#5, opr := 5#3, selr := 0#3, done := 1#1, pos := .idle
        analog := analogFlag b
        axis := if b = 0x73#8 then #v[s.rf[5], s.rf[6], s.rf[7], s.rf[8]] else #v[127, 127, 127, 127]
        pressed := ~~~ (s.rf[4] ++ s.rf[3]) } := by
  rw [presentMode, presentField_afterField hb, putBytes_one (by decide)]
  simp [afterField, axesOf]

/-- A mask leaves the mode and the axes to the frame's other bytes (R160). -/
theorem presentMask_idle (m : BitVec 16) :
    presentMask m s =
      { s with
        rf := (s.rf.set 3 (m.extractLsb' 0 8)).set 4 (m.extractLsb' 8 8), rflen := 9#5
        opr := 5#3, selr := 0#3, done := 1#1, pos := .idle
        analog := analogFlag s.rf[1], axis := axesOf s.rf, pressed := ~~~ m } := by
  rw [presentMask, presentField_afterField hb, putBytes_two (by decide)]
  simp [afterField, axesOf, mask_bytes]

/-- An axis byte leaves the mode and the buttons to the frame's other bytes (R77). -/
theorem presentAxis_idle (a : Fin 4) (v : Byte) :
    presentAxis a v s =
      { s with
        rf := s.rf.set (5 + a.val) v, rflen := 9#5, opr := 5#3, selr := 0#3, done := 1#1, pos := .idle
        analog := analogFlag s.rf[1], axis := axesOf (s.rf.set (5 + a.val) v)
        pressed := ~~~ (s.rf[4] ++ s.rf[3]) } := by
  have below : ∀ j, j < 5 → 5 + a.val ≠ j := by omega
  rw [presentAxis, presentField_afterField hb, putBytes_one (by omega)]
  simp [afterField, below]

end

theorem axesOf_getElem (r : Vector Byte 16) (a : Fin 4) :
    (axesOf r)[a] = if r[1] = 0x73#8 then r[5 + a.val] else 127#8 := by
  unfold axesOf
  split_ifs <;> match a with
    | 0 | 1 | 2 | 3 => rfl

/-! ### A word that is no row (R73, R75, R76) -/

theorem decodeMode_error {b : Byte} {err : DecodeError} (h : decodeMode b = .error err) :
    b ≠ 0x41#8 ∧ b ≠ 0x73#8 := by
  unfold decodeMode at h
  split_ifs at h with h1 h2
  exact ⟨h1, h2⟩

theorem decodeMask_error {k : Fin 16} {m : BitVec 16} {err : DecodeError}
    (h : decodeMask k m = .error err) : m.getLsbD k.val = true := by
  unfold decodeMask at h
  split_ifs at h with hk
  exact hk

/-! ### The register writes of R85 -/

theorem exec_session_idle {s : State} (sel : BitVec 3) (hb : s.busy = 0#1) :
    exec (.session sel) s = .next (startSession sel s) := congrArg _ (whenIdle_idle s _ hb)

theorem exec_decode_idle {s : State} (sel : BitVec 3) (hb : s.busy = 0#1) :
    exec (.decode sel) s = .next (decodeNow sel s) := congrArg _ (whenIdle_idle s _ hb)

section
variable {s : State} (hb : s.busy = 0#1)
include hb

/-- Writes of `CF` one after another write `CF` alone. -/
theorem foldl_hostWrite_cf (bs : Vector Byte 9) (js : List (Fin 9)) :
    js.foldl (fun u j => hostWrite (.cf (j.castLE (by decide))) bs[j] u) s =
      { s with cf := js.foldl (fun cf j => cf.set j.val bs[j]) s.cf } := by
  induction js generalizing s with
  | nil => rfl
  | cons j js ih =>
    rw [List.foldl_cons, hostWrite_cf _ _ hb]
    exact ih hb

theorem hostWrite_rf_putBytes (j : Fin 16) (b : Byte) :
    hostWrite (.rf j) b s = { s with rf := putBytes s.rf j.val [b] } := by
  rw [hostWrite_rf b j hb, putBytes_one j.isLt]

/-- Response bytes 3 and 4 are the bytes of the mask (R55). -/
theorem hostWrite_rf_mask (lo hi : Byte) :
    hostWrite (.rf 4) hi (hostWrite (.rf 3) lo s) = { s with rf := putBytes s.rf 3 [lo, hi] } := by
  rw [putBytes_cons (by decide), hostWrite_rf lo 3 hb]
  exact hostWrite_rf_putBytes (by exact hb) 4 hi

/-- With the nine bytes in `CF` the two writes left are the frame word. -/
theorem exec_session_of_written (bs : Vector Byte 9) :
    exec (.session 0) (hostWrite .cflen 9 { s with cf := putBytes s.cf 0 bs.toList }) =
      .next (presentFrame bs s) := by
  rw [hostWrite_cflen (s := { s with cf := putBytes s.cf 0 bs.toList }) 9 hb]
  exact (exec_session_idle 0 (by exact hb)).trans (congrArg _ (whenIdle_idle s _ hb).symm)

/-- With a field's bytes in `RF` the two writes left are the field word. -/
theorem exec_decode_of_written (j : Nat) (bs : List Byte) :
    exec (.decode 0) (hostWrite .rflen 9 { s with rf := putBytes s.rf j bs }) =
      .next (presentField j bs s) := by
  rw [hostWrite_rflen (s := { s with rf := putBytes s.rf j bs }) 9 hb (by decide)]
  exact (exec_decode_idle 0 (by exact hb)).trans (congrArg _ (whenIdle_idle s _ hb).symm)

end

theorem foldl_set_eq_putBytes (cf : Vector Byte 16) (bs : Vector Byte 9) :
    (List.finRange 9).foldl (fun cf j => cf.set j.val bs[j]) cf = putBytes cf 0 bs.toList := by
  rw [vector9_toList]
  repeat rw [putBytes_cons (by decide)]
  rfl

/-! ### The obligations -/

/-- Settles O22: each of these words is the host move that does nothing. -/
theorem reservedWordsChangeNothing : Obligations.ReservedWordsChangeNothing :=
  fun s _ _ _ => ⟨exec_eq_make _ s, exec_eq_make _ s, exec_eq_make _ s, exec_eq_make _ s,
    exec_eq_make _ s, exec_eq_make _ s⟩

/-- Settles O24: the two mode bytes as fields of a full frame. -/
theorem modeWordsSetTheMode : Obligations.ModeWordsSetTheMode := fun _ hb =>
  ⟨congrArg _ (presentMode_idle hb 0x41#8), congrArg _ (presentMode_idle hb 0x73#8)⟩

/-- Settles O25: the sixteen rows are `buttonRow k`, whose move puts the mask into `RF`. -/
theorem buttonWordsPressTheButton : Obligations.ButtonWordsPressTheButton := by
  intro s m i k hb hclear hik
  change (i, k) ∈ (List.finRange 16).map fun k => (buttonRow k m, k.val) at hik
  obtain ⟨k, -, hk⟩ := List.mem_map.mp hik
  cases hk
  refine ⟨by rw [BitVec.getLsbD_not, hclear, decide_eq_true k.isLt]; rfl, ?_⟩
  rw [exec_eq_make, instrMove_buttonRow]
  exact congrArg _ (presentMask_idle hb m)

/-- Settles O26: the four rows are `axisRow a`, whose move puts the byte into `RF`. -/
theorem axisWordsSetTheAxis : Obligations.AxisWordsSetTheAxis := by
  intro s v i a hb hia
  change (i, a) ∈ (List.finRange 4).map fun a => (axisRow a v, a) at hia
  obtain ⟨a, -, ha⟩ := List.mem_map.mp hia
  cases ha
  have hmode : (s.rf.set (5 + a.val) v)[1] = s.rf[1] := Vector.getElem_set_ne _ _ (by omega)
  rw [exec_eq_make, instrMove_axisRow]
  refine ⟨_, congrArg _ (presentAxis_idle hb a v), ?_, fun b hba => ?_, fun j => ?_, rfl⟩
  · exact (axesOf_getElem _ a).trans (by rw [hmode, Vector.getElem_set_self])
  · have hne : 5 + a.val ≠ 5 + b.val := by omega
    exact (axesOf_getElem _ b).trans (by rw [hmode, Vector.getElem_set_ne _ _ hne])
  · exact (set_getElem_fin s.rf ⟨5 + a.val, by omega⟩ j v).trans (if_congr Fin.ext_iff rfl rfl)

/-- Settles O27: on an idle block each write is stored, so that the buffer's writes are `putBytes`. -/
theorem frameWordsAreHostMoves : Obligations.FrameWordsAreHostMoves := by
  refine ⟨fun s bs hb => ?_, fun s b hb => ?_, fun s m hb => ?_, fun s a v hb => ?_⟩
  · rw [foldl_hostWrite_cf hb, foldl_set_eq_putBytes]
    exact exec_session_of_written hb bs
  · rw [hostWrite_rf_putBytes hb]
    exact exec_decode_of_written hb 1 [b]
  · rw [hostWrite_rf_mask hb]
    exact exec_decode_of_written hb 3 [m.extractLsb' 0 8, m.extractLsb' 8 8]
  · rw [hostWrite_rf_putBytes hb]
    exact exec_decode_of_written hb (5 + a.val) [v]

/-- Settles O55, by the word's format. -/
theorem otherWordsAreOrdinaryData : Obligations.OtherWordsAreOrdinaryData := by
  intro s it err rest hb hturns herr
  rw [decode_bytes] at herr
  have hstep := step_of_turnMove hturns (m := itemMove it) rfl
  cases it with
  | ctrl b => cases herr
  | frame bs => exact hstep.trans (congrArg _ (presentFrame_idle bs { s with turns := rest } hb))
  | mode b =>
    obtain ⟨hdigital, hanalog⟩ := decodeMode_error herr
    have hmode := presentMode_idle (s := { s with turns := rest }) hb b
    rw [if_neg hanalog, analogFlag, if_neg hanalog] at hmode
    exact ⟨hdigital, hanalog, hstep.trans (congrArg _ hmode)⟩
  | mask k m =>
    have hmask := presentMask_idle (s := { s with turns := rest }) hb m
    exact ⟨decodeMask_error herr, hstep.trans (congrArg _ hmask)⟩
  | axis a v => cases herr

end Sys2Proof.Machine
end

section
/-!
PROOFS. Sessions of nine bytes: a default Command Frame is sent (R101 to R106, R131), `POLL` is the
read-data session and a `DECODE` (R156), and the Poll Result as one value (R78).
-/
namespace Sys2Proof.Machine

/-! ### The latched operation is not read before the end of a session (R46) -/

/-- The state with another operation and `SEL` latched. -/
def setOp (op sel : BitVec 3) (s : State) : State := { s with opr := op, selr := sel }

section
variable (op sel : BitVec 3) (s : State)

theorem lineWrite_setOp (l : OutLine) (v : Bit) :
    lineWrite l v (setOp op sel s) = setOp op sel (lineWrite l v s) := by cases l <;> rfl

theorem bxEvent_setOp (k : Nat) : bxEvent k (setOp op sel s) = setOp op sel (bxEvent k s) := by
  by_cases hk : k = 0
  · subst hk
    rfl
  · have htxb : (setOp op sel s).txb = s.txb := rfl
    simp only [bxEvent, if_neg hk, htxb]
    cases bxAct s.txb k with
    | drive l v => exact lineWrite_setOp op sel s l v
    | sample i => rfl

theorem exchangeUpTo_setOp (k : Nat) :
    exchangeUpTo k (setOp op sel s) = setOp op sel (exchangeUpTo k s) := by
  induction k with
  | zero => rfl
  | succ k ih => rw [exchangeUpTo, ih, bxEvent_setOp, exchangeUpTo]

theorem received_setOp : received (setOp op sel s) = received s := by
  rw [received, exchangeUpTo_setOp]
  rfl

end

/-- What a session receives does not depend on the operation it belongs to. -/
theorem receives_of_setOp {op sel : BitVec 3} {o : Fin 4} {r : List Byte} {s : State}
    (h : Receives o r (setOp op sel s)) : Receives o r s := fun j hj =>
  (h j hj).trans (congrArg some (received_setOp op sel (loadByte j (afterBytes o (r.take j) s))))

/-- A session receives its bytes one after another, so that they are determined. -/
theorem receives_take_eq {o : Fin 4} {r r' : List Byte} {s : State} (h : Receives o r s)
    (h' : Receives o r' s) (hlen : r.length = r'.length) (j : Nat) : r.take j = r'.take j := by
  induction j with
  | zero => rfl
  | succ j ih =>
    by_cases hj : j < r.length
    · rw [List.take_add_one, List.take_add_one, h j hj, h' j (hlen ▸ hj), ih]
    · rw [List.take_of_length_le (by omega), List.take_of_length_le (by omega)] at ih
      rw [ih]

theorem receives_unique {o : Fin 4} {r r' : List Byte} {s : State} (h : Receives o r s)
    (h' : Receives o r' s) (hlen : r.length = r'.length) : r = r' := by
  have htake := receives_take_eq h h' hlen r.length
  rwa [List.take_length, hlen, List.take_length] at htake

/-- Two operations that make the same session receive the same bytes, and differ from its end on. -/
theorem session_run_setOp (o : Fin 4) (s : State) (hp : s.pos = .ses o 0) (hn : s.fr ≠ []) :
    ∃ r, r.length = s.fr.length ∧
      microSteps (33 * s.fr.length + 2) s = endSession o (afterSessionOf o r s) ∧
      ∀ op sel, microSteps (33 * s.fr.length + 2) (setOp op sel s) =
        endSession o (setOp op sel (afterSessionOf o r s)) := by
  obtain ⟨r, hlen, hrec, hrun⟩ := session_run o s hp hn
  refine ⟨r, hlen, hrun, fun op sel => ?_⟩
  obtain ⟨r', hlen', hrec', hrun'⟩ := session_run o (setOp op sel s) hp hn
  rw [receives_unique hrec (receives_of_setOp hrec') (hlen.trans hlen'.symm)]
  exact hrun'

theorem exec_poll_idle {s : State} (sel : BitVec 3) (hb : s.busy = 0#1) :
    exec (.poll sel) s = .next (setOp 4#3 sel (startCatalogSession 3 s)) :=
  congrArg _ (whenIdle_idle s _ hb)

theorem exec_readData_idle {s : State} (hb : s.busy = 0#1) :
    exec .csessionReadData s = .next (startCatalogSession 3 s) := congrArg _ (whenIdle_idle s _ hb)

/-! ### The obligations -/

/-- Settles O23: the six rows move as the frames they send, whose session is any of nine bytes. -/
theorem frameWordsAreSent : Obligations.FrameWordsAreSent := by
  intro s i f hb hif
  obtain ⟨bs, hmove, rfl⟩ : ∃ bs : Vector Byte 9, instrMove i = .frame bs ∧ bs.toList = f := by
    simp only [List.mem_cons, Prod.mk.injEq, List.not_mem_nil, or_false] at hif
    rcases hif with ⟨rfl, rfl⟩ | ⟨rfl, rfl⟩ | ⟨rfl, rfl⟩ | ⟨rfl, rfl⟩ | ⟨rfl, rfl⟩ | ⟨rfl, rfl⟩ <;>
      exact ⟨_, rfl, rfl⟩
  intro t
  have hlen : t.fr.length = 9 := bs.length_toList
  have hn : t.fr ≠ [] := List.ne_nil_of_length_pos (by omega)
  obtain ⟨r, hr, -, hrun⟩ := session_run 0 t rfl hn
  rw [hlen] at hr hrun
  refine ⟨?_, r, hr, hrun.trans ?_⟩
  · rw [exec_eq_make, hmove]
    exact congrArg _ (presentFrame_idle bs s hb)
  · rw [endSession_other (show 1#3 ≠ 3#3 by decide) (show 1#3 ≠ 4#3 by decide)]
    simp [afterSessionOf, finishOp, putBytes_filled, t]

/-- Settles O34: each field is joined below the ones before it. -/
theorem pollRecordLayout : Obligations.PollRecordLayout := by
  intro s
  rw [pollRecord, toNat_append_add, toNat_append_add, toNat_append_add, toNat_append_add,
    toNat_append_add]
  omega

/-- Settles O48: both make the read-data session, and `DECODE` stores what `POLL` stores at its end. -/
theorem pollIsReadDataThenDecode : Obligations.PollIsReadDataThenDecode := by
  intro s sel hb
  have hlen : (startCatalogSession 3 s).fr.length = 9 := s.params.catalogue.readData.length_toList
  have hn : (startCatalogSession 3 s).fr ≠ [] := List.ne_nil_of_length_pos (by omega)
  obtain ⟨r, -, hread, hpoll⟩ := session_run_setOp 0 (startCatalogSession 3 s) rfl hn
  rw [hlen] at hread hpoll
  rw [endSession_other (show 2#3 ≠ 3#3 by decide) (show 2#3 ≠ 4#3 by decide)] at hread
  have hbusy : (microSteps 299 (startCatalogSession 3 s)).busy = 0#1 := by rw [hread, finishOp_busy]
  have hrflen : (finishOp (afterSessionOf 0 r (startCatalogSession 3 s))).rflen.toNat ≤ 16 :=
    (congrArg (fun n => (BitVec.ofNat 5 n).toNat) hlen).trans_le (by decide)
  refine ⟨_, _, _, exec_readData_idle hb, exec_decode_idle 0 hbusy, exec_poll_idle sel hb, ?_⟩
  rw [hpoll, hread, endSession_poll rfl, storeResult_eq, decodeNow_legal _ _ hrflen]
  rfl

end Sys2Proof.Machine
end

section
/-!
PROOFS. The byte exchange as an operation of its own (R110 to R118): what one micro-step of `XCHG` touches,
what its 33 micro-steps leave and what the test peers answer; and the least time of a record (R116, R143,
R221).
-/
namespace Sys2Proof.Machine

/-! ### `XCHG` from its start (R117) -/

theorem exec_xchg_idle {s : State} (sel : BitVec 3) (hb : s.busy = 0#1) :
    exec (.xchg sel) s = .next (startXchg sel s) := congrArg _ (whenIdle_idle s _ hb)

/-- `XCHG` ends with the byte its exchange received in `RXD`. -/
theorem microSteps_startXchg_rxd (sel : BitVec 3) (s : State) :
    (microSteps 33 (startXchg sel s)).rxd = received (startXchg sel s) := by
  rw [xchg_run (startXchg sel s) rfl, finishOp_rxd]

/-! ### `SESSION` through a loopback peer (R118, R130) -/

theorem hostFrame_length_eq {s : State} (h : s.cflen.toNat ≤ 16) :
    (hostFrame s).length = s.cflen.toNat := by
  simpa [hostFrame] using h

theorem startSession_legal {s : State} (sel : BitVec 3) (hmin : 8 ≤ s.cflen.toNat)
    (hmax : s.cflen.toNat ≤ 16) :
    startSession sel s = openSession 0 (hostFrame s) (beginOp 1#3 sel s) :=
  if_pos (decide_eq_true ⟨hmin, hmax⟩)

/-- A session that ends its operation leaves in `RF` the frame it sent. -/
theorem microSteps_loopback_rf {o : Fin 4} {s : State} (hp : s.pos = .ses o 0) (hn : s.fr ≠ [])
    (h3 : s.opr ≠ 3#3) (h4 : s.opr ≠ 4#3) (hpeer : s.peer = .loopback) :
    (microSteps (33 * s.fr.length + 2) s).rf = filled s.rf s.fr := by
  obtain ⟨r, hlen, hrec, hrun⟩ := session_run o s hp hn
  obtain rfl : r = s.fr := receives_loopback o r s hlen hrec hpeer
  rw [hrun, endSession_other (s := afterSessionOf o s.fr s) h3 h4, finishOp_rf]
  exact putBytes_filled s.rf s.fr

/-! ### The least time of a record (R116, R143, R221) -/

section
variable (p : Config.Params)

theorem leastTime_append (es fs : List Event) :
    leastTime p (es ++ fs) = leastTime p es + leastTime p fs := by
  simp [leastTime]

theorem leastTime_cons (e : Event) (es : List Event) :
    leastTime p (e :: es) = leastHold p e + leastTime p es := List.sum_cons

/-- A bit cell holds the clock low once and high once. -/
theorem leastTime_cellEvents (b r : Byte) (i : Nat) : leastTime p (cellEvents b r i) = 2 * p.tHalf := by
  simp [leastTime, cellEvents, leastHold, Nat.two_mul]

theorem leastTime_flatMap_cellEvents (b r : Byte) (is : List Nat) :
    leastTime p (is.flatMap (cellEvents b r)) = 2 * is.length * p.tHalf := by
  induction is with
  | nil => simp [leastTime]
  | cons i is ih =>
    rw [List.flatMap_cons, leastTime_append, leastTime_cellEvents, ih, List.length_cons]
    ring

theorem leastTime_byteEvents (b r : Byte) : leastTime p (byteEvents b r) = 16 * p.tHalf := by
  rw [byteEvents, leastTime_cons, leastTime_flatMap_cellEvents]
  exact Nat.zero_add _

theorem leastTime_frameEvents {f r : List Byte} (h : f.length = r.length) :
    leastTime p (frameEvents f r) = 16 * f.length * p.tHalf := by
  induction f generalizing r with
  | nil => simp [frameEvents, leastTime]
  | cons b f ih =>
    cases r with
    | nil => cases h
    | cons a r =>
      rw [frameEvents, leastTime_append, leastTime_byteEvents, ih (Nat.succ.inj h), List.length_cons]
      ring

/-- The writes of `ATT` around the bytes hold nothing. -/
theorem leastTime_sessionEvents {f r : List Byte} (h : f.length = r.length) :
    leastTime p (sessionEvents f r) = 16 * f.length * p.tHalf := by
  rw [sessionEvents, leastTime_cons, leastTime_append, leastTime_frameEvents p h]
  exact Nat.zero_add _

end

/-! ### The obligations -/

/-- Settles O15: the byte is the one the exchange of `TXD` receives. -/
theorem xchgExchangesOneByte : Obligations.XchgExchangesOneByte :=
  fun s sel hb => ⟨exec_xchg_idle sel hb, received (startXchg sel s), xchg_run (startXchg sel s) rfl⟩

/-- Settles O37: times of joined records add, and a byte is sixteen clock phases. -/
theorem leastDurations : Obligations.LeastDurations := by
  intro p f r f1 r1 f2 r2 f3 r3 h h1 h2 h3
  refine ⟨leastTime_sessionEvents p h, fun h9 => ?_, ?_⟩
  · rw [leastTime_sessionEvents p h, h9]
  · rw [leastTime_append, leastTime_append, leastTime_append, leastTime_cons,
      leastTime_sessionEvents p h, leastTime_sessionEvents p h1, leastTime_sessionEvents p h2,
      leastTime_sessionEvents p h3, leastHold]
    ring

/-- Settles O39: the peer shows the bit on `CMD`, so that each byte received is the byte sent. -/
theorem loopbackRecoversWhatIsSent : Obligations.LoopbackRecoversWhatIsSent := by
  intro s sel hb hpeer
  refine ⟨⟨_, exec_xchg_idle sel hb, ?_⟩, fun hmin hmax => ⟨_, exec_session_idle sel hb, ?_⟩⟩
  · rw [microSteps_startXchg_rxd]
    exact received_loopback (startXchg sel s) hpeer
  · have hlen := hostFrame_length_eq hmax
    have hn : hostFrame s ≠ [] := List.ne_nil_of_length_pos (by omega)
    have hrun := microSteps_loopback_rf (s := openSession 0 (hostFrame s) (beginOp 1#3 sel s)) rfl hn
      (show 1#3 ≠ 3#3 by decide) (show 1#3 ≠ 4#3 by decide) hpeer
    rw [openSession_fr, hlen] at hrun
    rw [startSession_legal sel hmin hmax]
    exact hrun

/-- Settles O40: what `XCHG` sends does not enter the script's answers. -/
theorem scriptedPeerGivesItsByte : Obligations.ScriptedPeerGivesItsByte := by
  intro s sel bytes m b hb hpeer hreads hbyte
  refine ⟨_, exec_xchg_idle sel hb, ?_⟩
  rw [microSteps_startXchg_rxd]
  exact received_script (startXchg sel s) bytes m b hpeer hreads hbyte

/-- Settles O51: event 32 ends the operation, every event before it moves on to the next. -/
theorem xchgMicroStepFrame : Obligations.XchgMicroStepFrame := by
  intro s k hpos
  obtain ⟨cmd, clk, acc, reads, draws, e, hevent⟩ := bxEvent_frame k.val s
  refine ⟨cmd, clk, acc, reads, draws, e, ?_⟩
  by_cases hk : k = 32
  · subst hk
    rw [microStep_exchangeEnd hpos, show bxEvent 32 s = _ from hevent]
    rfl
  · have hlt : k.val < 32 := by omega
    have hnext : (⟨k.val + 1, by omega⟩ : Fin 33) = k + 1 :=
      Fin.ext (Fin.val_add_one_of_lt (show k < Fin.last 32 from hlt)).symm
    rw [microStep_exchange hlt hpos, hevent, hnext, if_neg hk]
    rfl

end Sys2Proof.Machine
end

section
/-!
PROOFS. The command session as an operation of its own (R125 to R134): what `SESSION` and `CSESSION` start
and refuse, what their `33*n + 2` micro-steps leave, and the counts of a session's record.
-/
namespace Sys2Proof.Machine

/-! ### From the start of a session to its end (R126, R131 to R133) -/

/-- The state R133 gives after an operation whose one session sent `f` and received `r`. -/
def sessionDone (op sel : BitVec 3) (f r : List Byte) (s : State) : State :=
  { s with
    fr := f, opr := op, selr := sel, busy := 0#1, done := 1#1, pos := .idle
    att := 1#1, clk := 1#1, cmd := bitOf (f.getLastD 0#8) 7
    txb := f.getLastD 0#8, acc := r.getLastD 0#8
    rf := filled s.rf r, rflen := BitVec.ofNat 5 f.length
    reads := s.reads + 8 * f.length, draws := s.draws + 8 * f.length
    trace := s.trace ++ sessionEvents f r }

/-- What `INIT` and `POLL` do after a session apart, an operation is over with its session. -/
theorem microSteps_openSession {op : BitVec 3} (sel : BitVec 3) {f : List Byte} (s : State) (hf : f ≠ [])
    (h3 : op ≠ 3#3) (h4 : op ≠ 4#3) :
    ∃ r, r.length = f.length ∧
      microSteps (33 * f.length + 2) (openSession 0 f (beginOp op sel s)) = sessionDone op sel f r s := by
  obtain ⟨r, hlen, -, hrun⟩ := session_run 0 (openSession 0 f (beginOp op sel s)) rfl hf
  refine ⟨r, hlen, hrun.trans ?_⟩
  rw [endSession_other (show _ ≠ 3#3 from h3) (show _ ≠ 4#3 from h4), sessionDone, ← putBytes_filled]
  rfl

/-! ### What starts a session, and what `SESSION` refuses (R83, R131, R132) -/

theorem startSession_illegal {s : State} (sel : BitVec 3) (h : s.cflen.toNat < 8 ∨ 16 < s.cflen.toNat) :
    startSession sel s = s := by
  have hlegal : ¬ (8 ≤ s.cflen.toNat ∧ s.cflen.toNat ≤ 16) := by omega
  exact if_neg (by simpa [sessionLegal] using hlegal)

/-- A move that changes nothing changes nothing on a busy block either. -/
theorem whenIdle_self (s : State) : whenIdle s s = s := ite_self s

theorem exec_catalog_idle {s : State} {i : Instr} {e : Fin 6} (hb : s.busy = 0#1)
    (h : instrMove i = .catalog e) : exec i s = .next (startCatalogSession e s) := by
  rw [exec_eq_make, h]
  exact congrArg _ (whenIdle_idle s _ hb)

theorem catalogEntry_ne_nil (c : Config.Catalogue) (e : Fin 6) : catalogEntry c e ≠ [] := by
  obtain ⟨hmin, -⟩ := catalogEntry_length c e
  exact List.ne_nil_of_length_pos (by omega)

/-! ### Counts of a record (R134) -/

theorem readsOf_append (es fs : List Event) : readsOf (es ++ fs) = readsOf es ++ readsOf fs := by
  induction es with
  | nil => rfl
  | cons e es ih =>
    cases e with
    | write l v => exact ih
    | read d => exact congrArg (d :: ·) ih
    | waitSettle => exact ih

section
variable (count : List Event → Nat) (c : Nat) (hadd : ∀ es fs, count (es ++ fs) = count es + count fs)
include hadd

/-- What adds up over joined records and is `c` on each byte exchange is `c * n` on a frame of `n`
bytes. -/
theorem count_frameEvents (hbyte : ∀ b a, count (byteEvents b a) = c) {f r : List Byte}
    (h : f.length = r.length) : count (frameEvents f r) = c * f.length := by
  induction f generalizing r with
  | nil =>
    have hnil : count [] = count [] + count [] := hadd [] []
    show count [] = c * 0
    omega
  | cons b f ih =>
    cases r with
    | nil => cases h
    | cons a r =>
      rw [frameEvents, hadd, hbyte, ih (Nat.succ.inj h), List.length_cons, Nat.mul_succ, Nat.add_comm]

/-- On a session the two writes of `ATT` are counted besides the bytes. -/
theorem count_sessionEvents (hbyte : ∀ b a, count (byteEvents b a) = c) {f r : List Byte}
    (h : f.length = r.length) :
    count (sessionEvents f r) = count [.write .att 0#1] + (c * f.length + count [.write .att 1#1]) := by
  rw [← count_frameEvents count c hadd hbyte h, ← hadd, ← hadd]
  rfl

end

theorem length_writesOf_append (l : OutLine) (es fs : List Event) :
    (writesOf l (es ++ fs)).length = (writesOf l es).length + (writesOf l fs).length := by
  rw [writesOf_append, List.length_append]

theorem length_readsOf_append (es fs : List Event) :
    (readsOf (es ++ fs)).length = (readsOf es).length + (readsOf fs).length := by
  rw [readsOf_append, List.length_append]

section
variable {f r : List Byte} (h : f.length = r.length)
include h

theorem length_sessionEvents : (sessionEvents f r).length = 33 * f.length + 2 := by
  rw [count_sessionEvents List.length 33 (fun _ _ => List.length_append) (fun _ _ => rfl) h]
  exact Nat.add_comm 1 _

theorem length_writesOf_cmd_sessionEvents :
    (writesOf .cmd (sessionEvents f r)).length = 9 * f.length := by
  rw [count_sessionEvents (fun es => (writesOf .cmd es).length) 9 (length_writesOf_append .cmd)
    (fun _ _ => rfl) h]
  exact Nat.zero_add _

theorem length_writesOf_clk_sessionEvents :
    (writesOf .clk (sessionEvents f r)).length = 16 * f.length := by
  rw [count_sessionEvents (fun es => (writesOf .clk es).length) 16 (length_writesOf_append .clk)
    (fun _ _ => rfl) h]
  exact Nat.zero_add _

theorem length_readsOf_sessionEvents : (readsOf (sessionEvents f r)).length = 8 * f.length := by
  rw [count_sessionEvents (fun es => (readsOf es).length) 8 length_readsOf_append (fun _ _ => rfl) h]
  exact Nat.zero_add _

end

/-! ### The obligations -/

/-- Settles O16: an admitted `SESSION` opens a session on the host's frame, which is not empty. -/
theorem sessionSendsTheHostFrame : Obligations.SessionSendsTheHostFrame := by
  intro s sel hb hmin hmax
  have hlen := hostFrame_length_eq hmax
  have hn : hostFrame s ≠ [] := List.ne_nil_of_length_pos (by omega)
  refine ⟨?_, hlen, microSteps_openSession sel s hn (by decide) (by decide)⟩
  rw [exec_session_idle sel hb, startSession_legal sel hmin hmax]
  rfl

/-- Settles O17: the length is tested before anything is written. -/
theorem sessionRefusesOtherLengths : Obligations.SessionRefusesOtherLengths := by
  intro s sel h
  rw [exec_eq_make]
  exact congrArg _ ((congrArg (whenIdle s) (startSession_illegal sel h)).trans (whenIdle_self s))

/-- Settles O18: the six words are one move, on the entry each of them names. -/
theorem csessionSendsItsCatalogueEntry : Obligations.CsessionSendsItsCatalogueEntry := by
  intro s i e hb hie
  have hmove : instrMove i = .catalog e := by
    simp only [List.mem_cons, Prod.mk.injEq, List.not_mem_nil, or_false] at hie
    rcases hie with ⟨rfl, rfl⟩ | ⟨rfl, rfl⟩ | ⟨rfl, rfl⟩ | ⟨rfl, rfl⟩ | ⟨rfl, rfl⟩ | ⟨rfl, rfl⟩ <;>
      rfl
  exact ⟨exec_catalog_idle hb hmove,
    microSteps_openSession _ s (catalogEntry_ne_nil _ e) (by decide) (by decide)⟩

/-- Settles O35: a byte exchange is 33 events, of which nine write `CMD`, sixteen write `CLK` and eight
read `DAT`, and `ATT` is written around the bytes. -/
theorem sessionCounts : Obligations.SessionCounts := by
  intro n f r hf hr
  subst hf
  have hlen := length_sessionEvents hr.symm
  exact ⟨hlen, congrArg List.length (writesOf_att_sessionEvents f r),
    length_writesOf_cmd_sessionEvents hr.symm, length_writesOf_clk_sessionEvents hr.symm,
    length_readsOf_sessionEvents hr.symm, by omega, by omega, by omega⟩

end Sys2Proof.Machine
end

section
/-!
PROOFS. The Configuration Sequence (R140 to R149): what each session of `INIT` leaves to the next, the settle
wait, and the check of the mode byte that ends the operation.
-/
namespace Sys2Proof.Machine

/-! ### The sessions of `INIT` (R141, R144) -/

/-- The state after session `o` sent `f` and received `r`, before what the operation does at its end. -/
def sessionRan (o : Fin 4) (f r : List Byte) (s : State) : State := afterSessionOf o r (openSession o f s)

/-- A session of `INIT` ends in what R140 has follow it. -/
theorem microSteps_initSession (o : Fin 4) {f : List Byte} {s : State} (hf : f ≠ []) (hop : s.opr = 3#3) :
    ∃ r, r.length = f.length ∧
      microSteps (33 * f.length + 2) (openSession o f s) = afterInitSession o (sessionRan o f r s) := by
  obtain ⟨r, hlen, -, hrun⟩ := session_run o (openSession o f s) rfl hf
  exact ⟨r, hlen, hrun.trans (endSession_init hop)⟩

/-- The state after the three configuration sessions, which received `r0`, `r1` and `r2`. -/
def configured (r0 r1 r2 : List Byte) (s : State) : State :=
  sessionRan 2 (catalogEntry s.params.catalogue 2) r2
    (sessionRan 1 (catalogEntry s.params.catalogue 1) r1
      (sessionRan 0 (catalogEntry s.params.catalogue 0) r0 s))

/-- The three configuration sessions, each opened by the end of the one before it, lead to the wait. -/
theorem microSteps_configuration {s : State} (hop : s.opr = 3#3) :
    ∃ r0 r1 r2, r0.length = (catalogEntry s.params.catalogue 0).length ∧
      r1.length = (catalogEntry s.params.catalogue 1).length ∧
      r2.length = (catalogEntry s.params.catalogue 2).length ∧
      microSteps (33 * (r0.length + r1.length + r2.length) + 6)
        (openSession 0 (catalogEntry s.params.catalogue 0) s) =
          moveTo .settle (configured r0 r1 r2 s) := by
  obtain ⟨r0, h0, hrun0⟩ := microSteps_initSession 0 (s := s)
    (catalogEntry_ne_nil s.params.catalogue 0) hop
  obtain ⟨r1, h1, hrun1⟩ := microSteps_initSession 1 (s := sessionRan 0 _ r0 s)
    (catalogEntry_ne_nil s.params.catalogue 1) hop
  obtain ⟨r2, h2, hrun2⟩ := microSteps_initSession 2 (s := sessionRan 1 _ r1 (sessionRan 0 _ r0 s))
    (catalogEntry_ne_nil s.params.catalogue 2) hop
  refine ⟨r0, r1, r2, h0, h1, h2, ?_⟩
  rw [show 33 * (r0.length + r1.length + r2.length) + 6 =
      (33 * r0.length + 2) + ((33 * r1.length + 2) + (33 * r2.length + 2)) by omega,
    h0, h1, h2, microSteps_add, hrun0, microSteps_add]
  exact (congrArg _ hrun1).trans hrun2

/-! ### The validation read and the end (R144, R145) -/

/-- The last micro-step of `INIT` writes `CFG_FAIL` by the mode byte, and ends the operation. -/
theorem endInit_eq (s : State) : endInit s = { s with
    busy := 0#1, done := 1#1, pos := .idle
    cfgFail := if s.rf[1] = 0x41#8 ∨ s.rf[1] = 0x73#8 then s.cfgFail else 1#1 } := by
  simp only [endInit, validationSignal, recognizedMode_iff]
  split <;> rfl

/-- The mode byte of a response is its second byte. -/
theorem filled_modeByte (v : Vector Byte 16) {r : List Byte} (h : 1 < r.length) :
    (filled v r)[1] = r.getD 1 0#8 := by
  simp [filled, List.getD, List.getElem?_eq_getElem h]

/-- From the settle wait to the end of `INIT`. -/
theorem microSteps_validation {s : State} (hop : s.opr = 3#3) :
    ∃ r, r.length = 9 ∧ microSteps (1 + 299) (moveTo .settle s) =
      endInit (sessionRan 3 s.params.catalogue.readData.toList r (settleWait (moveTo .settle s))) := by
  have hlen : (catalogEntry s.params.catalogue 3).length = 9 := s.params.catalogue.readData.length_toList
  obtain ⟨r, hr, hrun⟩ := microSteps_initSession 3 (s := settleWait (moveTo .settle s))
    (catalogEntry_ne_nil s.params.catalogue 3) hop
  rw [hlen] at hr hrun
  exact ⟨r, hr, (microSteps_add 1 _ _).trans hrun⟩

/-! ### From the start of `INIT` to its end (R140, R148) -/

/-- What `INIT` writes at its start besides opening session 0. -/
def initBegun (sel : BitVec 3) (s : State) : State := { beginOp 3#3 sel s with cfgFail := 0#1 }

theorem exec_init_idle {s : State} (sel : BitVec 3) (hb : s.busy = 0#1) :
    exec (.init sel) s =
      .next (openSession 0 (catalogEntry s.params.catalogue 0) (initBegun sel s)) :=
  congrArg _ (whenIdle_idle s _ hb)

/-- The micro-steps of `INIT`: three sessions lead to the wait, the wait and one read to the check. -/
theorem microSteps_init (sel : BitVec 3) (s : State) :
    ∃ r0 r1 r2 r3, r0.length = (catalogEntry s.params.catalogue 0).length ∧
      r1.length = (catalogEntry s.params.catalogue 1).length ∧
      r2.length = (catalogEntry s.params.catalogue 2).length ∧ r3.length = 9 ∧
      microSteps (33 * (r0.length + r1.length + r2.length + 9) + 9)
        (openSession 0 (catalogEntry s.params.catalogue 0) (initBegun sel s)) =
          endInit (sessionRan 3 s.params.catalogue.readData.toList r3
            (settleWait (moveTo .settle (configured r0 r1 r2 (initBegun sel s))))) := by
  obtain ⟨r0, r1, r2, h0, h1, h2, hconfigure⟩ := microSteps_configuration (s := initBegun sel s) rfl
  obtain ⟨r3, h3, hvalidate⟩ := microSteps_validation (s := configured r0 r1 r2 (initBegun sel s)) rfl
  refine ⟨r0, r1, r2, r3, h0, h1, h2, h3, ?_⟩
  rw [show 33 * (r0.length + r1.length + r2.length + 9) + 9 =
      (33 * (r0.length + r1.length + r2.length) + 6) + (1 + 299) by omega, microSteps_add]
  exact (congrArg _ hconfigure).trans hvalidate

/-! ### The obligations -/

/-- Settles O20: what the four sessions and the wait leave is joined field by field, and the mode byte
checked is that of the last response. -/
theorem initConfiguresAndValidates : Obligations.InitConfiguresAndValidates := by
  intro s sel hb f0 f1 f2 f3 t
  obtain ⟨r0, r1, r2, r3, h0, h1, h2, h3, hrun⟩ := microSteps_init sel s
  refine ⟨exec_init_idle sel hb, r0, r1, r2, r3, h0, h1, h2, h3, ?_⟩
  rw [h0, h1, h2] at hrun
  have hmode := fun v => filled_modeByte v (r := r3) (by omega)
  refine hrun.trans ?_
  rw [endInit_eq]
  simp [configured, sessionRan, afterSessionOf, initBegun, putBytes_filled, hmode, f0, f1, f2, f3,
    Nat.mul_add, Nat.add_assoc]

/-- Settles O53: the entry that opens after the wait is the read-data frame. -/
theorem settleIsOneWait : Obligations.SettleIsOneWait := fun _ hpos => microStep_settle hpos

end Sys2Proof.Machine
end

section
/-!
PROOFS. Poll and Decode (R155 to R169): the decoder by the frame's length, `DECODE`'s one micro-step, and
`POLL` from its start to its end, with any peer and with a scripted one.
-/
namespace Sys2Proof.Machine

/-! ### The decoder (R157 to R163) -/

theorem decodeFrame_short {n : Nat} (h : n < 9) (r : Vector Byte 16) :
    decodeFrame n r = { analog := 0#1, axis := #v[127, 127, 127, 127], pressed := 0x0000#16 } := if_pos h

/-- A full frame decodes as its first nine bytes would (R163). -/
theorem decodeFrame_full {n : Nat} (h : 9 ≤ n) (r : Vector Byte 16) :
    decodeFrame n r =
      { analog := analogFlag r[1], axis := axesOf r, pressed := ~~~ (r[4] ++ r[3]) } := by
  rw [← decodeFrame_nine]
  exact (if_neg (Nat.not_lt.mpr h)).trans (if_neg (Nat.lt_irrefl 9)).symm

theorem axesOf_analog {r : Vector Byte 16} (h : r[1] = 0x73#8) : axesOf r = #v[r[5], r[6], r[7], r[8]] :=
  if_pos h

theorem axesOf_notAnalog {r : Vector Byte 16} (h : r[1] ≠ 0x73#8) : axesOf r = #v[127, 127, 127, 127] :=
  if_neg h

/-- Any mode byte but 0x73, recognized or not, is not Analog (R164). -/
theorem decodeFrame_notAnalog {n : Nat} {r : Vector Byte 16} (hn : 9 ≤ n) (hmode : r[1] ≠ 0x73#8) :
    decodeFrame n r =
      { analog := 0#1, axis := #v[127, 127, 127, 127], pressed := ~~~ (r[4] ++ r[3]) } := by
  have hflag : analogFlag r[1] = 0#1 := if_neg hmode
  rw [decodeFrame_full hn, hflag, axesOf_notAnalog hmode]

/-- Where the decoder says Analog, the frame is full and its mode byte says so. -/
theorem mode_of_decodeFrame_analog {n : Nat} {r : Vector Byte 16} (h : (decodeFrame n r).analog = 1#1) :
    9 ≤ n ∧ r[1] = 0x73#8 := by
  by_cases hn : n < 9
  · rw [decodeFrame_short hn] at h
    exact absurd h (by decide)
  · rw [decodeFrame_full (by omega)] at h
    exact ⟨by omega, (analogFlag_eq_one_iff _).mp h⟩

/-! ### `DECODE` (R166) -/

section
variable {s : State} (sel : BitVec 3) (hb : s.busy = 0#1)
include hb

/-- An admitted `DECODE` writes the Poll Result `p` the decoder gives. -/
theorem exec_decode_result {p : PollResult} (hlen : s.rflen.toNat ≤ 16)
    (hp : decodeFrame s.rflen.toNat s.rf = p) :
    exec (.decode sel) s = .next { s with
      opr := 5#3, selr := sel, done := 1#1, pos := .idle
      analog := p.analog, axis := p.axis, pressed := p.pressed } := by
  rw [exec_decode_idle sel hb, decodeNow_legal sel s hlen, hp, ← hb]

theorem exec_decode_illegal (hlen : 16 < s.rflen.toNat) : exec (.decode sel) s = .next s := by
  have hlegal : ¬ decodeLegal s = true := by simpa [decodeLegal] using hlen
  rw [exec_decode_idle sel hb, decodeNow, if_neg hlegal]

end

/-! ### `POLL` from its start to its end (R156) -/

/-- The state with another Poll Result in its registers. -/
def withResult (p : PollResult) (s : State) : State :=
  { s with analog := p.analog, axis := p.axis, pressed := p.pressed }

theorem storedResult_withResult (p : PollResult) (s : State) : storedResult (withResult p s) = p := rfl

theorem finishOp_withResult (p : PollResult) (s : State) :
    finishOp (withResult p s) = withResult p (finishOp s) := rfl

theorem storeResult_eq_withResult (s : State) :
    storeResult s = withResult (decodeFrame s.rflen.toNat s.rf) s := storeResult_eq s

/-- The state `POLL` leaves after a session that received `r`: that of the session, with the Poll Result
of the nine bytes. -/
def pollDone (sel : BitVec 3) (r : List Byte) (s : State) : State :=
  withResult (decodeFrame 9 (filled s.rf r)) (sessionDone 4#3 sel s.params.catalogue.readData.toList r s)

theorem storedResult_pollDone (sel : BitVec 3) (r : List Byte) (s : State) :
    storedResult (pollDone sel r s) = decodeFrame 9 (filled s.rf r) := storedResult_withResult _ _

theorem pollDone_rf (sel : BitVec 3) (r : List Byte) (s : State) :
    (pollDone sel r s).rf = filled s.rf r := rfl

theorem pollDone_reads (sel : BitVec 3) (r : List Byte) (s : State) :
    (pollDone sel r s).reads = s.reads + 72 :=
  congrArg (s.reads + 8 * ·) s.params.catalogue.readData.length_toList

/-- The last event of `POLL`'s session decodes the nine bytes and ends the operation. -/
theorem endSession_pollDone (sel : BitVec 3) (r : List Byte) (s : State) :
    endSession 0 (afterSessionOf 0 r (setOp 4#3 sel (startCatalogSession 3 s))) = pollDone sel r s := by
  have hlen : (BitVec.ofNat 5 (setOp 4#3 sel (startCatalogSession 3 s)).fr.length).toNat = 9 :=
    congrArg (fun n => (BitVec.ofNat 5 n).toNat) s.params.catalogue.readData.length_toList
  rw [endSession_poll rfl, storeResult_eq_withResult, finishOp_withResult, pollDone]
  simp only [afterSessionOf, putBytes_filled, hlen]
  rfl

theorem microSteps_poll (sel : BitVec 3) (s : State) :
    ∃ r, r.length = 9 ∧ Receives 0 r (setOp 4#3 sel (startCatalogSession 3 s)) ∧
      microSteps 299 (setOp 4#3 sel (startCatalogSession 3 s)) = pollDone sel r s := by
  have hlen : (setOp 4#3 sel (startCatalogSession 3 s)).fr.length = 9 :=
    s.params.catalogue.readData.length_toList
  obtain ⟨r, hr, hrec, hrun⟩ :=
    session_run 0 (setOp 4#3 sel (startCatalogSession 3 s)) rfl (catalogEntry_ne_nil s.params.catalogue 3)
  rw [hlen] at hr hrun
  exact ⟨r, hr, hrec, hrun.trans (endSession_pollDone sel r s)⟩

/-! ### `POLL` with a scripted peer (R114, R165) -/

/-- A script that has `n` bytes left from byte `m` on is long enough for them. -/
theorem add_le_length_of_take_drop {bytes f : List Byte} {m n : Nat} (hlen : f.length = n) (hn : 0 < n)
    (hf : (bytes.drop m).take n = f) : m + n ≤ bytes.length := by
  have h := congrArg List.length hf
  rw [List.length_take, List.length_drop] at h
  omega

/-- The nine bytes a script gives from byte `m` on are what `POLL` receives. -/
theorem microSteps_poll_script (sel : BitVec 3) {s : State} {bytes f : List Byte} {m : Nat}
    (hpeer : s.peer = .script bytes) (hreads : s.reads = 8 * m) (hlen : f.length = 9)
    (hf : (bytes.drop m).take 9 = f) :
    microSteps 299 (setOp 4#3 sel (startCatalogSession 3 s)) = pollDone sel f s := by
  obtain ⟨r, hr, hrec, hrun⟩ := microSteps_poll sel s
  have hlong := add_le_length_of_take_drop hlen (by decide) hf
  have hscript := receives_script 0 r _ bytes m hrec hpeer hreads (by omega)
  obtain rfl : r = f := by rw [hscript, hr, hf]
  exact hrun

/-- Filling a buffer twice with the same bytes is filling it once. -/
theorem filled_filled (v : Vector Byte 16) (r : List Byte) : filled (filled v r) r = filled v r := by
  rw [Vector.ext_iff]
  intro k hk
  simp only [filled, Vector.getElem_ofFn, List.getD_eq_getElem?_getD]
  cases r[k]? <;> rfl

theorem pollResult_eq_of_storedResult_eq {s t : State} (h : storedResult s = storedResult t) :
    s.analog = t.analog ∧ s.axis = t.axis ∧ s.pressed = t.pressed := storedResult_eq_iff.mp h

/-- A second `POLL` that receives what the first received leaves the first's Poll Result. -/
theorem storedResult_pollDone_again (sel : BitVec 3) (r : List Byte) (s : State) :
    storedResult (pollDone sel r (pollDone sel r s)) = storedResult (pollDone sel r s) := by
  rw [storedResult_pollDone, storedResult_pollDone, pollDone_rf, filled_filled]

/-! ### The obligations -/

/-- Settles O19: `POLL` is the read-data session, and a frame of nine bytes is decoded at its end. -/
theorem pollReadsAndDecodes : Obligations.PollReadsAndDecodes := by
  intro s sel hb f t
  have hlen : f.length = 9 := s.params.catalogue.readData.length_toList
  obtain ⟨r, hr, -, hrun⟩ := microSteps_poll sel s
  refine ⟨exec_poll_idle sel hb, r, hr, hrun.trans ?_⟩
  rw [pollDone, withResult, sessionDone, show s.params.catalogue.readData.toList.length = 9 from hlen]

/-- Settles O21: the two cases of the admission of `DECODE`. -/
theorem decodeWritesThePollResult : Obligations.DecodeWritesThePollResult := fun _ sel hb =>
  ⟨fun hlen => exec_decode_result sel hb hlen rfl, fun hlen => exec_decode_illegal sel hb hlen⟩

/-- Settles O28: the length is tested before any byte is looked at. -/
theorem shortFrameIsNeutral : Obligations.ShortFrameIsNeutral :=
  ⟨fun _ r hn => decodeFrame_short hn r, fun s sel hb hlen =>
    exec_decode_result sel hb (by omega) (decodeFrame_short hlen s.rf)⟩

/-- Settles O29: `PRESSED` is the complement of bytes 4 and 3 joined, byte 3 the low octet. -/
theorem fullFrameDecodes : Obligations.FullFrameDecodes := by
  intro n r hn
  rw [decodeFrame_full hn]
  refine ⟨analogFlag_eq_one_iff r[1], axesOf_analog, axesOf_notAnalog, fun k hk => ?_, fun k hk => ?_⟩
  · rw [BitVec.getLsbD_not, BitVec.getLsbD_append]
    simp [hk, show k < 16 by omega]
  · rw [BitVec.getLsbD_not, BitVec.getLsbD_append]
    simp [show 8 + k < 16 by omega]

/-- Settles O30: only a full frame whose mode byte is Analog is decoded as Analog. -/
theorem axesFollowTheMode : Obligations.AxesFollowTheMode := by
  refine fun n r => ⟨fun hanalog => ?_, fun hdigital a => ?_⟩
  · obtain ⟨hn, hmode⟩ := mode_of_decodeFrame_analog hanalog
    rw [decodeFrame_full hn, axesOf_analog hmode]
    exact ⟨rfl, rfl, rfl, rfl⟩
  · rw [decodeFrame_axes n r hdigital]
    exact Vector.getElem_replicate a.isLt

/-- Settles O31: the mode byte decides the flag and the axes only, and only 0x73 is Analog. -/
theorem unrecognizedModeDecodes : Obligations.UnrecognizedModeDecodes :=
  ⟨fun _ _ hn _ hmode => decodeFrame_notAnalog hn hmode, fun _ sel hb hmin hmax _ hmode =>
    exec_decode_result sel hb hmax (decodeFrame_notAnalog hmin hmode)⟩

/-- Settles O32: a full frame is decoded from bytes 1, 3 and 4, and from bytes 5 to 8 if byte 1 says
Analog. -/
theorem decoderIgnoresOtherBytes : Obligations.DecoderIgnoresOtherBytes := by
  intro n n' r r' hn hn' h1 h3 h4 haxes
  rw [decodeFrame_full hn, decodeFrame_full hn', ← h1, ← h3, ← h4]
  congr 1
  by_cases hmode : r[1] = 0x73#8
  · obtain ⟨h5, h6, h7, h8⟩ := haxes hmode
    rw [axesOf_analog hmode, axesOf_analog (h1 ▸ hmode), h5, h6, h7, h8]
  · rw [axesOf_notAnalog hmode, axesOf_notAnalog (h1 ▸ hmode)]

/-- Settles O41: the first `POLL` reads 72 levels, so that the second starts at the script's byte
`m + 9`, where the same nine bytes stand. -/
theorem equalAnswersGiveEqualPollResults : Obligations.EqualAnswersGiveEqualPollResults := by
  intro s sel f bytes m hb hpeer hreads hlen hfirst hsecond
  have hrun := microSteps_poll_script sel hpeer hreads hlen hfirst
  have hreads' : (pollDone sel f s).reads = 8 * (m + 9) := by rw [pollDone_reads, hreads, Nat.mul_add]
  have hrun' := microSteps_poll_script (s := pollDone sel f s) sel hpeer hreads' hlen hsecond
  obtain ⟨hanalog, haxis, hpressed⟩ :=
    pollResult_eq_of_storedResult_eq (storedResult_pollDone_again sel f s)
  refine ⟨_, _, exec_poll_idle sel hb, exec_poll_idle sel (by rw [hrun]; rfl), ?_⟩
  rw [hrun, hrun']
  exact ⟨hanalog, haxis, hpressed, pollDone_rf sel f s⟩

end Sys2Proof.Machine
end

section
/-!
PROOFS. Exceptions (R180 to R188): raising a signal writes `CFG_FAIL` at most, and no instruction and no
step has another outcome than a next state, but for the turn of a second driver (R61).
-/
namespace Sys2Proof.Machine

/-! ### Outcomes (R61, R183, R188) -/

/-- A turn of the host or of the sequencer is answered with a next state. -/
theorem takeTurn_answers {t : Turn} (s0 s : State) (ht : ∀ l v, t ≠ .intruder l v) :
    ∃ u, takeTurn t s0 s = .next u := by
  cases t with
  | reset | read | tick | wait => exact ⟨_, rfl⟩
  | present it => exact ⟨_, presentWord_eq_make it s⟩
  | write r v =>
    by_cases hr : r = .ctrl
    · subst hr
      exact ⟨_, presentWord_eq_make (.ctrl v) s⟩
    · exact ⟨_, takeTurn_write hr v s0 s⟩
  | intruder l v => exact absurd rfl (ht l v)

/-- A second driver of the bus is refused, whatever level it drives (R61). -/
theorem step_of_intruder {s : State} {l : OutLine} {v : Bit} {rest : List Turn}
    (h : s.turns = .intruder l v :: rest) : step s = .refused (.secondDriver l) :=
  step_of_turns_cons h

/-- A step whose turn is no second driver's is answered with a next state. -/
theorem step_answers {s : State} (h : ∀ l v rest, s.turns ≠ .intruder l v :: rest) :
    ∃ t, step s = .next t := by
  cases hturns : s.turns with
  | nil => exact ⟨_, step_of_turns_nil hturns⟩
  | cons turn rest =>
    rw [step_of_turns_cons hturns]
    exact takeTurn_answers s _ fun l v ht => h l v rest (ht ▸ hturns)

/-! ### The obligations -/

/-- Settles O8: an instruction is a host move, which has a next state, and so has every turn but a second
driver's. -/
theorem nothingFaults : Obligations.NothingFaults := by
  refine ⟨fun i s => ⟨_, exec_eq_make i s⟩, fun s => ?_, fun _ _ _ _ => step_of_intruder⟩
  by_cases hdriver : ∃ l v rest, s.turns = .intruder l v :: rest
  · obtain ⟨l, v, rest, hturns⟩ := hdriver
    exact .inr ⟨l, v, rest, hturns, step_of_intruder hturns⟩
  · exact .inl (step_answers fun l v rest hturns => hdriver ⟨l, v, rest, hturns⟩)

/-- Settles O54: each clause is an equation of `raise` or of `signalCode`. -/
theorem raisingASignal : Obligations.RaisingASignal := fun _ => ⟨rfl, rfl, rfl, rfl, rfl⟩

end Sys2Proof.Machine
end

section
/-!
PROOFS. Reset and hazards (R210 to R223): a reset is one host move that leaves nothing of the operation in
progress, and an operation that is left alone counts down the micro-steps `remaining` gives it, whatever
the peer answers.
-/
namespace Sys2Proof.Machine

/-! ### The count at each position (R134, R149) -/

section
variable {s : State}

theorem remaining_idle (h : s.pos = .idle) : remaining s = 0 := by simp only [remaining, h]

theorem remaining_exchange {k : Fin 33} (h : s.pos = .bxs k) : remaining s = 33 - k.val := by
  simp only [remaining, h]

theorem remaining_session {o : Fin 4} {p : Nat} (h : s.pos = .ses o p) :
    remaining s = 33 * s.fr.length + 2 - p
      + if s.opr = 3#3 then afterSession s.params.catalogue o else 0 := by
  simp only [remaining, h, sessionLength]

theorem remaining_settle (h : s.pos = .settle) : remaining s = 300 := by simp only [remaining, h]

/-- At the start of a session of `INIT` all of it and what follows it are left (R149). -/
theorem remaining_openSession (o : Fin 4) (frame : List Byte) (hop : s.opr = 3#3) :
    remaining (openSession o frame s) =
      sessionLength frame.length + afterSession s.params.catalogue o := by
  rw [remaining_session (openSession_pos s o frame), openSession_fr, openSession_opr, if_pos hop,
    openSession_params]
  rfl

end

/-! ### A micro-step counts one -/

/-- What follows a session of `INIT` takes `afterSession` micro-steps (R140, R149). -/
theorem remaining_afterInitSession (o : Fin 4) {s : State} (hop : s.opr = 3#3) :
    remaining (afterInitSession o s) = afterSession s.params.catalogue o := by
  match o with
  | 0 => exact (remaining_openSession 1 _ hop).trans (Nat.add_assoc ..).symm
  | 1 => exact remaining_openSession 2 _ hop
  | 2 => exact remaining_settle rfl
  | 3 => exact remaining_idle rfl

/-- After the last event of a session only `INIT` has micro-steps left. -/
theorem remaining_endSession (o : Fin 4) (s : State) :
    remaining (endSession o s) = if s.opr = 3#3 then afterSession s.params.catalogue o else 0 := by
  by_cases h3 : s.opr = 3#3
  · rw [endSession_init h3, if_pos h3, remaining_afterInitSession o h3]
  · rw [if_neg h3]
    by_cases h4 : s.opr = 4#3
    · rw [endSession_poll h4]
      exact remaining_idle rfl
    · rw [endSession_other h3 h4]
      exact remaining_idle rfl

/-- What the invariant says of a session: its frame has at most `LMAX` bytes and its position is at
most that of its last event (R25, R125). -/
theorem session_bounds_of_inv {s : State} {o : Fin 4} {p : Nat} (h : Inv s) (hpos : s.pos = .ses o p) :
    s.fr.length ≤ 16 ∧ p ≤ 33 * s.fr.length + 1 := by
  have hlen := h.len
  have hlegal := h.pos
  rw [hpos] at hlen hlegal
  simp only [posLegal, Bool.and_eq_true, decide_eq_true_eq] at hlegal
  exact ⟨(of_decide_eq_true hlen).2, hlegal.1⟩

/-- At the settle wait the operation is `INIT` (R143). -/
theorem init_of_inv_settle {s : State} (h : Inv s) (hpos : s.pos = .settle) : s.opr = 3#3 := by
  have hlegal := h.pos
  rw [hpos] at hlegal
  exact eq_of_beq hlegal

/-- A session goes on to its next event with one micro-step less. -/
theorem remaining_nextEvent {s t : State} {o : Fin 4} {p : Nat} (hpos : s.pos = .ses o p)
    (hp : p ≤ 33 * s.fr.length) (htpos : t.pos = .ses o (p + 1)) (hfr : t.fr = s.fr)
    (hopr : t.opr = s.opr) (hparams : t.params = s.params) : remaining t + 1 = remaining s := by
  rw [remaining_session hpos, remaining_session htpos, hfr, hopr, hparams]
  omega

/-- The micro-steps left count down by one with each, whatever level the peer shows (R223). -/
theorem remaining_microStep {s : State} (h : Inv s) (hpos : s.pos ≠ .idle) :
    remaining (microStep s) + 1 = remaining s := by
  generalize ht : microStep s = t
  cases microStepTo_of_eq ht with
  | idle hidle => exact absurd hidle hpos
  | exchange k hk hk' =>
    rw [remaining_exchange hk', remaining_exchange (moveTo_pos _ _)]
    have hcount : 33 - (k + 1) + 1 = 33 - k := by omega
    exact hcount
  | exchangeEnd hk =>
    rw [remaining_exchange hk, remaining_idle (finishOp_pos _)]
    rfl
  | attentionLow o hs => exact remaining_nextEvent hs (Nat.zero_le _) rfl rfl rfl rfl
  | byte o j k hj hk hs =>
    exact remaining_nextEvent hs (by omega) rfl (byteEvent_fr j k s) (byteEvent_opr j k s)
      (byteEvent_params j k s)
  | attentionHigh o p hs hp =>
    obtain ⟨-, hlast⟩ := session_bounds_of_inv h hs
    rw [remaining_endSession, lineWrite_opr, lineWrite_params, remaining_session hs]
    omega
  | settle hs =>
    have hlen : (catalogEntry s.params.catalogue 3).length = 9 :=
      s.params.catalogue.readData.length_toList
    have hop : (settleWait s).opr = 3#3 := (settleWait_opr s).trans (init_of_inv_settle h hs)
    rw [remaining_settle hs, settleEvent, remaining_openSession 3 _ hop, hlen]
    rfl

/-- No micro-step is left exactly where no operation is in progress. -/
theorem remaining_eq_zero_iff {s : State} (h : Inv s) : remaining s = 0 ↔ s.pos = .idle := by
  refine ⟨fun h0 => ?_, remaining_idle⟩
  by_contra hpos
  have hstep := remaining_microStep h hpos
  omega

/-! ### Runs of micro-steps -/

theorem inv_microSteps {s : State} (h : Inv s) (n : Nat) : Inv (microSteps n s) := by
  induction n generalizing s with
  | zero => exact h
  | succ n ih => exact ih (inv_microStep h)

theorem remaining_microSteps {s : State} (h : Inv s) (n : Nat) :
    remaining (microSteps n s) = remaining s - n := by
  induction n generalizing s with
  | zero => rfl
  | succ n ih =>
    have hrest : remaining (microSteps (n + 1) s) = remaining (microStep s) - n := ih (inv_microStep h)
    by_cases hpos : s.pos = .idle
    · rw [hrest, microStep_idle hpos, remaining_idle hpos]
      omega
    · have hstep := remaining_microStep h hpos
      omega

/-- After `n` micro-steps the operation is over exactly when `n` has reached its count (R223). -/
theorem microSteps_pos_idle_iff {s : State} (h : Inv s) (n : Nat) :
    (microSteps n s).pos = .idle ↔ remaining s ≤ n := by
  rw [← remaining_eq_zero_iff (inv_microSteps h n), remaining_microSteps h n]
  exact Nat.sub_eq_zero_iff_le

/-! ### The bound (R223) -/

/-- Two further sessions of at most `LMAX` bytes, the settle wait and the validation read (R149). -/
theorem afterSession_le (c : Config.Catalogue) (o : Fin 4) : afterSession c o ≤ 1360 := by
  obtain ⟨-, hsetMode⟩ := catalogEntry_length c 1
  obtain ⟨-, hexit⟩ := catalogEntry_length c 2
  match o with
  | 0 | 1 | 2 | 3 =>
    simp only [afterSession, sessionLength]
    omega

theorem remaining_le {s : State} (h : Inv s) : remaining s ≤ 1890 := by
  cases hpos : s.pos with
  | idle =>
    rw [remaining_idle hpos]
    omega
  | bxs k =>
    rw [remaining_exchange hpos]
    omega
  | ses o p =>
    obtain ⟨hlen, -⟩ := session_bounds_of_inv h hpos
    have hafter := afterSession_le s.params.catalogue o
    rw [remaining_session hpos]
    split <;> omega
  | settle =>
    rw [remaining_settle hpos]
    omega

/-! ### The obligations -/

/-- Settles O44: every micro-step takes one off the count, and the count is zero only at `IDLE`. -/
theorem everyOperationEnds : Obligations.EveryOperationEnds := fun s h =>
  ⟨(microSteps_pos_idle_iff h (remaining s)).mpr le_rfl,
    fun m hm hidle => Nat.not_le.mpr hm ((microSteps_pos_idle_iff h m).mp hidle),
    remaining_le h⟩

/-- Settles O10: a reset at the head of the turns is taken before any micro-step, and `applyReset` keeps
only what is outside the block. -/
theorem resetAtAnyMicroStep : Obligations.ResetAtAnyMicroStep := fun _ _ h => step_of_turns_cons h

end Sys2Proof.Machine
end

section
/-!
PROOFS. What a run begins with: the state right after reset (R44), and a word of the opcode table put where
the next step fetches it, which executes it (logs 4 and 9).
-/
namespace Sys2Proof.Machine

/-! ### Fetching a word of the table -/

theorem toOption_eq_some_iff {r : Except DecodeError Instr} {i : Instr} :
    r.toOption = some i ↔ r = .ok i := by
  cases r with
  | ok j => simp only [Except.toOption, Option.some.injEq, Except.ok.injEq]
  | error e => exact ⟨nofun, nofun⟩

/-- A table word is read as the word it is taken for is decoded. -/
theorem decodeTableWord_eq_some_iff {nbits w : Nat} {i : Instr} :
    decodeTableWord nbits w = some i ↔ ∃ it, tableItem nbits w = some it ∧ decodeItem it = .ok i := by
  unfold decodeTableWord
  split
  next it hit => simp [hit, decode_bytes, toOption_eq_some_iff]
  next hnone => simp [hnone]

/-- The fetched word is the only turn that the step takes, so that the word meets `s` as it was. -/
theorem step_withFetchWord (s : State) {nbits w : Nat} {it : Item} (h : tableItem nbits w = some it) :
    step (s.withFetchWord nbits w) = presentWord it s := by
  have hplaced : s.withFetchWord nbits w = { s with turns := .present it :: s.turns } := by
    simp only [State.withFetchWord, h]
  rw [hplaced]
  exact step_of_turns_cons (t := .present it) (rest := s.turns) rfl

/-! ### The obligations -/

/-- Settles O6: the step presents the item the word is taken for, and that item is a row. -/
theorem fetchedWordIsExecuted : Obligations.FetchedWordIsExecuted := by
  intro s nbits w i h
  obtain ⟨it, hitem, hrow⟩ := decodeTableWord_eq_some_iff.mp h
  exact (step_withFetchWord s hitem).trans (presentWord_of_ok s hrow)

/-- Settles O9: `State.reset` holds each value as R44 lists it, and every register of a buffer holds the
value the buffer is filled with. -/
theorem resetValues : Obligations.ResetValues :=
  ⟨rfl, rfl, rfl, rfl, rfl, rfl,
    fun j => Vector.getElem_replicate j.isLt, rfl,
    fun j => Vector.getElem_replicate j.isLt, rfl,
    rfl, rfl,
    rfl, fun a => Vector.getElem_replicate a.isLt, rfl,
    rfl, rfl, rfl, rfl, rfl, rfl⟩

end Sys2Proof.Machine
end
